-- ==== Sys2Proof/Word.lean ====
section
/-! DEFINITION. The word types of the DX24: bytes, bus fields, and the sparse page that a page of 4,416 bytes is kept as. -/

namespace Sys2Proof

/-- One byte of the host link, of a page or of a view. -/
abbrev Byte := BitVec 8

/-- A station id, 0 to 15 (R144). -/
abbrev StationId := BitVec 4

/-- The 16-bit nonce of a die's life between two die resets (R144). -/
abbrev Nonce := BitVec 16

/-- The 55 bits of one budget bus frame as read on BDAT, the start bit first and so most significant (R127).
A set bit is recessive, a clear bit dominant (R123, R131). -/
abbrev Line := BitVec 55

/-- The 4,416 bytes of a page (R1), kept as the bytes that differ from 0xFF: offsets strictly rising, no
0xFF listed. An unlisted offset reads 0xFF, which is what an empty or erased page holds (R8, R49). -/
abbrev Page := List Host.Cell

end Sys2Proof
end

