-- ==== Sys2Proof/Config.lean ====
section
/-! DEFINITION. What the manual leaves to the cells or does not state, as constants with no body: nothing can
compute them, so a statement about them holds whatever they are. -/

namespace Sys2Proof.Config

/-- How many of a word line's marks remain when a die reset cuts the first erase pulse of its block (R16:
'some word line marks and page bytes may remain'). The first argument is the cut's own number
(`State.fresh`), the second the word line's key. The remaining marks are a leading part of the ones that were there, so
that they form one of the five sets of R5. Log entry 15. -/
opaque marksRemaining : Nat → Nat → Nat

/-- Whether a byte of the block remains when a die reset cuts the first erase pulse (R16). The first argument is the
cut's own number, the second the byte's address. Log entry 15. -/
opaque byteRemains : Nat → Nat → Bool

/-- The sequence number of the map page written after one of number 4,294,967,295, which the manual does not
state (R159 gives it 32 bits and 'one more'). Log entry 16. -/
opaque sequenceAfterLast : BitVec 32

/-- Whether a RENEW that is pending when the own entry neither holds nor waits is sent, with held 0, or removed at the start of
its attempt. R119, R139 and the third paragraph of R93 have it sent, the last paragraph of R93 and R138 have it removed, and
nothing says which holds. Log entry 38. -/
opaque emptyRenewIsSent : Bool

end Sys2Proof.Config
end

