-- ==== Sys2Proof/Machine/Limits.lean ====
section
/-! DEFINITION. The numbers the manual fixes: geometry, limits, reservations and times. -/

namespace Sys2Proof.Machine

/-- Bytes in a page (R1). -/
def pageBytes : Nat := 4416

/-- Word lines in a block (R1). -/
def blockWordLines : Nat := 64

/-- Blocks the host addresses in a bank, 0 to 2045 (R21). -/
def hostBlocks : Nat := 2046

/-- Operation slots of the die (R18). -/
def slotLimit : Nat := 8

/-- Host operations a bank queue holds at most (R22). -/
def queueLimit : Nat := 6

/-- Pulses of a coarse pass (R9). -/
def coarseLimit : Nat := 10

/-- Pulses of a fine pass (R10). -/
def fineLimit : Nat := 14

/-- Pulses of an erase (R8). -/
def eraseLimit : Nat := 8

/-- Pulses of a map-page write (R12). -/
def mapPageLimit : Nat := 6

/-- Suspensions of one ERASE (R75). -/
def suspensionLimit : Nat := 4

/-- Entries of a retired list (R157). -/
def retiredLimit : Nat := 64

/-- Consecutive failed map-page writes that make a bank DEGRADED (R165). -/
def mapFailureLimit : Nat := 3

/-- Map pages of a map block (R159). -/
def mapPages : Nat := 64

/-- The rejection run at which a station enters TX_FAULT (R140). -/
def rejectionRunLimit : Nat := 16

/-- The reject run at which a station enters RX_FAULT (R141). -/
def rejectRunLimit : Nat := 8

/-- Dominant bits that set BUS_STUCK (R142). -/
def stuckBits : Nat := 128

/-- Recessive bits that clear BUS_STUCK (R142). -/
def clearBits : Nat := 16

/-- Recessive bits in a row, read out of frame, that make the bus idle (R125). -/
def idleBits : Nat := 6

/-- The bits of a frame from the start bit to the end of the check field (R127, R184). -/
def checkEnd : Nat := 50

/-- The bits of a frame (R127). -/
def frameBits : Nat := 55

/-- The length of a FETCH_OUTPUT or LOAD_STAGING at most (R43, R50). -/
def transferLimit : Nat := 512

/-- Steps of 100 µs in one ms, the model's unit of time (R122, log entry 1). -/
def ticksPerMs : Nat := 10

/-- The release hold-off, 200 µs (R92). -/
def holdOffTicks : Nat := 2

end Sys2Proof.Machine
end

