-- ==== Sys2Proof/Syntax.lean ====
section
/-! DEFINITION. The commands and happenings of spec/opcode_table.json, one constructor a row, with the operands
the manual gives each. -/

namespace Sys2Proof

/-- One of the two banks (R1). -/
inductive BankId where
  | zero
  | one
deriving DecidableEq, Repr

/-- The three sources of a die reset (R178). -/
inductive ResetSource where
  /-- the supply rising from off -/
  | powerOn
  /-- RESET_N low -/
  | pin
  /-- the end of a DIE_RESET transaction -/
  | command
deriving DecidableEq, Repr

/-- The rows of the table. A host command carries the parameter bytes of its command phase as clocked in; their
number is the parameter count (R170). A happening inside the die carries what the cells or the straps gave. The end of a frame
carries the bits that BDAT is read at up to it, oldest first, `true` for recessive (R123, log entry 7). -/
inductive Instr where
  /-- CONFIGURE, code 0x11 (R145) -/
  | configure (params : List Byte)
  /-- JOIN, code 0x12 (R146) -/
  | join (params : List Byte)
  /-- LEAVE, code 0x13 (R153) -/
  | leave (params : List Byte)
  /-- POST_READ, code 0x21 (R21) -/
  | postRead (params : List Byte)
  /-- POST_PROGRAM, code 0x22 (R21) -/
  | postProgram (params : List Byte)
  /-- POST_FINISH, code 0x23 (R21) -/
  | postFinish (params : List Byte)
  /-- POST_ERASE, code 0x24 (R21) -/
  | postErase (params : List Byte)
  /-- ABORT, code 0x2F (R30) -/
  | abort (params : List Byte)
  /-- LOAD_STAGING, code 0x31 (R50) -/
  | loadStaging (params : List Byte)
  /-- FETCH_OUTPUT, code 0x32 (R43) -/
  | fetchOutput (params : List Byte)
  /-- RELEASE_OUTPUT, code 0x33 (R44) -/
  | releaseOutput (params : List Byte)
  /-- TAKE_COMPLETIONS, code 0x41 (R29) -/
  | takeCompletions (params : List Byte)
  /-- READ_STATUS, code 0x42 (R175) -/
  | readStatus (params : List Byte)
  /-- READ_BUDGET_TABLE, code 0x43 (R122) -/
  | readBudgetTable (params : List Byte)
  /-- READ_RETIRED, code 0x44 (R168) -/
  | readRetired (params : List Byte)
  /-- DIE_RESET, code 0x5A (R179) -/
  | dieReset (params : List Byte)
  /-- a transaction whose code is not one of the sixteen (R171) -/
  | unknownCommand (code : Byte) (params : List Byte)
  /-- HSEL_N rises before the command phase is complete; the bytes clocked in by then (R172) -/
  | transactionCut (clockedIn : List Byte)
  /-- a source of a die reset begins (R178) -/
  | dieResetBegin (source : ResetSource)
  /-- a source of a die reset ends; the straps SID3 to SID0, the nonce drawn, and whether HSEL_N is low (R144, R180) -/
  | dieResetEnd (source : ResetSource) (straps : StationId) (nonce : Nonce) (hselLow : Bool)
  /-- the bank's pulse ends and its verify begins (R2) -/
  | pulseEnd (bank : BankId)
  /-- the bank's READ sense ends. The bytes the cells give where they are unreliable; `none`: as last placed (R14, R38) -/
  | readSenseEnd (bank : BankId) (cells : Option Page)
  /-- the blank check sense of the bank's PROGRAM of word line 0 ends (R56) -/
  | blankCheckEnd (bank : BankId)
  /-- a MAP_LOAD scan sense ends. The bytes the cells give; `none`: as last placed (R12, R160) -/
  | mapScanSenseEnd (bank : BankId) (cells : Option Page)
  /-- the bank's coarse verify ends, passed or failed (R3, R9) -/
  | coarseVerifyEnd (bank : BankId) (passed : Bool)
  /-- the bank's fine verify ends, passed or failed (R3, R10) -/
  | fineVerifyEnd (bank : BankId) (passed : Bool)
  /-- the erase verify of the bank's host ERASE ends (R72) -/
  | eraseVerifyEnd (bank : BankId) (passed : Bool)
  /-- the erase verify of the bank's MAP_REWRITE ends (R164) -/
  | mapEraseVerifyEnd (bank : BankId) (passed : Bool)
  /-- the bank's map-page verify ends (R163) -/
  | mapPageVerifyEnd (bank : BankId) (passed : Bool)
  /-- the wait-time accumulator of the operation named by the tag reaches W (R98) -/
  | waitLimitExpiry (tag : Byte)
  /-- the release hold-off reaches 200 µs (R92) -/
  | releaseHoldOffExpiry
  /-- the renewal timer reaches L/2 (R93) -/
  | renewalDue
  /-- the renewal timer reaches L (R94) -/
  | selfLeaseLapse
  /-- the last-heard age of the station's entry passes L (R117) -/
  | lastHeardAgeExpiry (station : StationId)
  /-- the learning window has run for L (R148) -/
  | learningWindowEnd
  /-- the line reads dominant until the dominant count reaches 128 (R142) -/
  | busStuckSet
  /-- the line reads recessive until the recessive count reaches 16 (R142) -/
  | busStuckClear
  /-- a bit begins (R126, R138) -/
  | attemptStart
  /-- so many recessive bits are read and then these bits, with the last of which a frame's end field ends (R136) -/
  | frameEnd (recessive : Nat) (bits : List Bool)
deriving DecidableEq, Repr

end Sys2Proof
end

