-- ==== Sys2Proof/Machine/Types.lean ====
section
/-! DEFINITION. The named values and the records of which the state is made. -/

namespace Sys2Proof.Machine

/-- A page's position in its word line (R1). -/
inductive Position where
  | low
  | middle
  | high
deriving DecidableEq, Repr

/-- One thing for each of the three positions: staging slots, latch pages, pending pages (R49, R51, R53). -/
structure Trio (α : Type) where
  low : α
  middle : α
  high : α
deriving DecidableEq, Repr

/-- The four mark cells of a word line (R4). -/
structure PassMarks where
  coarseBegun : Bool
  coarseDone : Bool
  fineBegun : Bool
  fineDone : Bool
deriving DecidableEq, Repr

/-- A word line's condition (R5). -/
inductive WordLineCondition where
  | erased
  | coarsePartial
  | coarse
  | finePartial
  | fine
deriving DecidableEq, Repr

/-- A block's condition (R7). -/
inductive BlockCondition where
  | retired
  | unclean
  | erased
  | written
deriving DecidableEq, Repr

/-- The outcome of an ended operation (Index of Outcomes, R182). -/
inductive OpOutcome where
  | ok
  | erasedPage
  | coarseOnly
  | torn
  | programFail
  | eraseFail
  | retired
  | notErased
  | notOpen
  | orderError
  | openBlockBusy
  | stagingIncomplete
  | mapLost
  | budgetTimeout
  | aborted
deriving DecidableEq, Repr

/-- The two programming passes (R9, R10). -/
inductive PassKind where
  | coarse
  | fine
deriving DecidableEq, Repr

/-- The two paths of a READ (R35). -/
inductive ReadPath where
  | pending
  | sensing
deriving DecidableEq, Repr

/-- A host operation's kind with the address fields and the flag of its post (R18). -/
inductive HostOp where
  | read (wordLine : Nat) (position : Position)
  | program (wordLine : Nat)
  | finish
  | erase (suspendable : Bool)
deriving DecidableEq, Repr

/-- The states of a slot that is not FREE (R19). -/
inductive SlotState where
  | queued
  | waiting
  | running
  | held
  | suspended
  | outputWait
  | recording
  | done
deriving DecidableEq, Repr

/-- What a failure fixes in a RECORDING slot (R26, R64, R65, R74). -/
structure Failure where
  outcome : OpOutcome
  failedPass : Option PassKind
  failedWordLine : Option Nat
deriving DecidableEq, Repr

/-- The record of an operation slot that is not FREE (R18), with the READ's path (R35) and a failure's fixed
fields (R26). -/
structure Slot where
  tag : Byte
  op : HostOp
  bank : BankId
  block : Nat
  state : SlotState
  stopRequest : Bool
  waitTime : Nat
  suspensions : Nat
  pulses : Nat
  budgetWaited : Bool
  arrayTouched : Bool
  path : Option ReadPath
  failure : Option Failure
deriving DecidableEq, Repr

/-- The flags of a completion record (R27). -/
structure RecordFlags where
  fromPending : Bool
  mapWritten : Bool
  listFull : Bool
  mapDegraded : Bool
  budgetWaited : Bool
  arrayTouched : Bool
deriving DecidableEq, Repr

/-- A completion record (R27, R182). -/
structure Completion where
  tag : Byte
  op : HostOp
  bank : BankId
  block : Nat
  outcome : OpOutcome
  failedPass : Option PassKind
  failedWordLine : Option Nat
  pulses : Nat
  suspensions : Nat
  flags : RecordFlags
deriving DecidableEq, Repr

/-- A DONE slot with its completion record, as it stands in the completion queue (R19, R28). -/
structure DoneSlot where
  slot : Slot
  record : Completion
deriving DecidableEq, Repr

/-- The programming pass in progress, or the next to begin (R58 to R62). -/
structure Pass where
  kind : PassKind
  wordLine : Nat
deriving DecidableEq, Repr

/-- What a sense is made for (R13). -/
inductive SenseUse where
  | read
  | blankCheck
  | mapScan
deriving DecidableEq, Repr

/-- What a pulse and its verify belong to (R2). -/
inductive PulseUse where
  | coarse
  | fine
  | erase
  | mapErase
  | mapPage
deriving DecidableEq, Repr

/-- The array step under way in a bank (R2). -/
inductive Step where
  | sense (use : SenseUse)
  | pulse (use : PulseUse)
  | verify (use : PulseUse)
deriving DecidableEq, Repr

/-- Map block A (2046) or B (2047) (R1). -/
inductive MapBlock where
  | a
  | b
deriving DecidableEq, Repr

/-- Why a block is in the retired list (R157). -/
inductive Cause where
  | factory
  | programFail
  | eraseFail
deriving DecidableEq, Repr

/-- One entry of a retired list (R157). -/
structure RetiredEntry where
  block : Nat
  cause : Cause
deriving DecidableEq, Repr

/-- The map state of a bank (R158). -/
inductive MapState where
  | loading
  | loaded
  | lost
  | degraded
deriving DecidableEq, Repr

/-- The valid map page with the highest sequence number that a scan has found so far (R160). -/
structure ScanBest where
  seq : BitVec 32
  entries : List RetiredEntry
  block : MapBlock
  wordLine : Nat
deriving DecidableEq, Repr

/-- Where a MAP_LOAD stands: the page being sensed, the best valid page, and each block's first erased page (R160). -/
structure Scan where
  block : MapBlock
  wordLine : Nat
  best : Option ScanBest
  firstErasedA : Option Nat
  firstErasedB : Option Nat
deriving DecidableEq, Repr

/-- An internal operation with its progress (R23, R160, R163, R164). -/
inductive InternalOp where
  | mapLoad (scan : Scan)
  /-- pulses given to the page at the next map page -/
  | mapUpdate (pulses : Nat)
  /-- erase pulses given to the other map block -/
  | rewriteErase (pulses : Nat)
  /-- the word line of the other map block being written and the pulses given to it -/
  | rewritePage (wordLine pulses : Nat)
deriving DecidableEq, Repr

/-- The internal operation that stands ahead of a bank's queue, and whether it has begun (R23, R88). -/
structure Internal where
  op : InternalOp
  begun : Bool
deriving DecidableEq, Repr

/-- One page slot of a staging buffer (R49). -/
structure StagingSlot where
  loaded : Bool
  page : Page
deriving DecidableEq, Repr

/-- A pending slot that is not empty (R53). -/
structure PendingSlot where
  block : Nat
  wordLine : Nat
  pages : Trio Page
deriving DecidableEq, Repr

/-- An open-block record. Its pending word line is always next − 1 (R52). -/
structure OpenBlock where
  block : Nat
  next : Nat
deriving DecidableEq, Repr

/-- Whose sense the latch holds (R39). -/
inductive SenseOwner where
  | read (tag : Byte)
  | blankCheck
  | mapScan
deriving DecidableEq, Repr

/-- A sense result (R13, R39). -/
structure SenseResult where
  page : Page
  marks : PassMarks
  eraseComplete : Bool
  outcome : OpOutcome
  owner : SenseOwner
deriving DecidableEq, Repr

/-- An output buffer: free, or held under a tag (R40). -/
structure OutputBuffer where
  holder : Option Byte
  page : Page
deriving DecidableEq, Repr

/-- A station's waiting field (R101). -/
structure Waiting where
  requested : Nat
  level : Nat
deriving DecidableEq, Repr

/-- One entry of the budget table (R101). -/
structure Entry where
  known : Bool
  held : Nat
  waiting : Option Waiting
  generation : BitVec 4
  age : Nat
  nonce : Option Nonce
deriving DecidableEq, Repr

/-- One thing for each station id 0 to 15. -/
abbrev PerStation (α : Type) := Vector α 16

/-- The station states (R143). -/
inductive StationState where
  | unconfigured
  | configured
  | solo
  | learning
  | inService
  | leaving
  | idConflict
  | configMismatch
  | rxFault
  | txFault
deriving DecidableEq, Repr

/-- Bus use (R145). -/
inductive BusUse where
  | shared
  | solo
deriving DecidableEq, Repr

/-- The configuration (R145). -/
structure Settings where
  busUse : BusUse
  budget : Nat
  lease : Nat
  waitLimit : Nat
deriving DecidableEq, Repr

/-- The transmit set: at most one frame of each kind, EVICT at most one for each target, kept with the generation it
was queued with (R117, R137). -/
structure TransmitSet where
  hello : Bool
  claim : Bool
  release : Bool
  renew : Bool
  withdraw : Bool
  evict : PerStation (Option (BitVec 4))
deriving DecidableEq, Repr

/-- What a frame says: its kind with the subfields of its payload (R128). -/
inductive Payload where
  | hello (nonce : Nonce)
  | claim (q : BitVec 8) (level : BitVec 4)
  | release (total : BitVec 8)
  | renew (held requested : BitVec 8) (level : BitVec 4)
  | evict (target generation : BitVec 4)
  | withdraw
deriving DecidableEq, Repr

/-- The frame of the current attempt, fixed at its start (R138). -/
structure Attempt where
  payload : Payload
  line : Line
deriving DecidableEq, Repr

/-- The port's framing position: out of frame, or in frame with the bits of the frame read so far, the start bit first. Their
number is the position, 0 to 54 (R124). -/
inductive Framing where
  | outOfFrame
  | inFrame (heard : List Bool)
deriving DecidableEq, Repr

/-- The twelve response codes (R173). -/
inductive Response where
  | accepted
  | unknownCommand
  | badLength
  | badAddress
  | badValue
  | tagInUse
  | noSuchTag
  | noSlot
  | queueFull
  | wrongState
  | outputEmpty
  | alreadyDone
deriving DecidableEq, Repr

end Sys2Proof.Machine
end

