-- ==== Sys2Proof/Machine/Store.lean ====
section
/-! DEFINITION. The sparse store: a list of keys and values in one canonical form, keys strictly rising and no value
equal to what an unlisted key reads as. Pages, the array's bytes, its pass marks and its erase-complete marks are kept in it. -/

namespace Sys2Proof.Machine

/-- A sparse store. -/
abbrev Store (α : Type) := List (Nat × α)

/-- The value at a key; `d` is what an unlisted key reads as. -/
def Store.get {α : Type} (d : α) : Store α → Nat → α
  | [], _ => d
  | (k, v) :: m, a => if a < k then d else if a = k then v else Store.get d m a

/-- Write one key, keeping the canonical form: writing `d` removes the entry. -/
def Store.set {α : Type} [DecidableEq α] (d : α) : Store α → Nat → α → Store α
  | [], a, x => if x = d then [] else [(a, x)]
  | (k, v) :: m, a, x =>
    if a < k then (if x = d then (k, v) :: m else (a, x) :: (k, v) :: m)
    else if a = k then (if x = d then m else (a, x) :: m)
    else (k, v) :: Store.set d m a x

/-- Every listed key is at least `lo`, the keys rise strictly, and no listed value is `d`. -/
def Store.wfFrom {α : Type} [DecidableEq α] (d : α) : Nat → Store α → Bool
  | _, [] => true
  | lo, (k, v) :: m => decide (lo ≤ k) && decide (v ≠ d) && Store.wfFrom d (k + 1) m

/-- The canonical form. -/
def Store.wf {α : Type} [DecidableEq α] (d : α) (m : Store α) : Bool :=
  Store.wfFrom d 0 m

/-- Every key from `lo` to `lo + n - 1` reads the unlisted value afterwards. -/
def Store.clear {α : Type} (m : Store α) (lo n : Nat) : Store α :=
  m.filter fun c => decide (c.1 < lo) || decide (lo + n ≤ c.1)

/-- The keys from `lo` to `lo + n - 1`, counted from 0. -/
def Store.slice {α : Type} (m : Store α) (lo n : Nat) : Store α :=
  m.filterMap fun c => if lo ≤ c.1 ∧ c.1 < lo + n then some (c.1 - lo, c.2) else none

/-- Write the keys of `page` below `n`, in order, at `lo` and upward. -/
def Store.overlay {α : Type} [DecidableEq α] (d : α) (lo n : Nat) : Store α → Store α → Store α
  | m, [] => m
  | m, (k, v) :: page =>
    Store.overlay d lo n (if k < n then Store.set d m (lo + k) v else m) page

/-- The keys from `lo` to `lo + n - 1` become those of `page`; every other key keeps its value. -/
def Store.blit {α : Type} [DecidableEq α] (d : α) (m : Store α) (lo n : Nat) (page : Store α) : Store α :=
  Store.overlay d lo n (Store.clear m lo n) page

/-- What an unlisted byte of a page or of the array reads as: 0xFF, the erased byte (R8, R17, R49). -/
def blankByte : Byte := 0xFF#8

/-- The byte of a page at an offset (R1). -/
def pageByte (p : Page) (offset : Nat) : Byte :=
  Store.get blankByte p offset

/-- The bytes of a page at offsets `offset` to `offset + n - 1`, in order (R43). -/
def pageBytesAt (p : Page) (offset : Nat) : Nat → List Byte
  | 0 => []
  | n + 1 => pageByte p offset :: pageBytesAt p (offset + 1) n

/-- Write bytes into a page in offset order; bytes at other offsets keep their values (R50). -/
def pageWrite (p : Page) : Nat → List Byte → Page
  | _, [] => p
  | offset, b :: bs => pageWrite (Store.set blankByte p offset b) (offset + 1) bs

/-- A page in canonical form with no offset beyond 4415. -/
def pageWf (p : Page) : Bool :=
  Store.wf blankByte p && p.all fun c => decide (c.1 < pageBytes)

/-- The member of a trio at a position. -/
def Trio.get {α : Type} (t : Trio α) : Position → α
  | .low => t.low
  | .middle => t.middle
  | .high => t.high

/-- A trio with the member at one position replaced. -/
def Trio.set {α : Type} (t : Trio α) (p : Position) (x : α) : Trio α :=
  match p with
  | .low => { t with low := x }
  | .middle => { t with middle := x }
  | .high => { t with high := x }

/-- The same function applied at each position. -/
def Trio.map {α β : Type} (f : α → β) (t : Trio α) : Trio β :=
  ⟨f t.low, f t.middle, f t.high⟩

/-- What a station id's place holds. -/
def PerStation.entry {α : Type} (t : PerStation α) (k : StationId) : α :=
  t[k.toNat]'(k.isLt)

/-- A station id's place replaced. -/
def PerStation.put {α : Type} (t : PerStation α) (k : StationId) (x : α) : PerStation α :=
  t.set k.toNat x k.isLt

/-- The sixteen station ids in rising order. -/
def stationIds : List StationId :=
  (List.range 16).map (BitVec.ofNat 4)

end Sys2Proof.Machine
end

