-- ==== Sys2Proof/Machine/Formats.lean ====
section
/-! DEFINITION. The layouts of the Formats chapter: numbers for named values, the check codes, the map page and the
budget bus frame. -/

namespace Sys2Proof.Machine

/-- A field of two bytes, most significant first (R181). -/
def be16 (hi lo : Byte) : Nat :=
  hi.toNat * 256 + lo.toNat

/-- A number as two bytes, most significant first. -/
def bytes16 (n : Nat) : List Byte :=
  [BitVec.ofNat 8 (n / 256), BitVec.ofNat 8 n]

/-- A 32-bit number as four bytes, most significant first. -/
def bytes32 (n : BitVec 32) : List Byte :=
  [n.extractLsb' 24 8, n.extractLsb' 16 8, n.extractLsb' 8 8, n.extractLsb' 0 8]

/-- Bits packed into a byte, the first in bit 0. -/
def packBits : List Bool → Nat
  | [] => 0
  | b :: bs => (if b then 1 else 0) + 2 * packBits bs

/-- The byte whose bits, from bit 0 up, are the given ones. -/
def bitsByte (bs : List Bool) : Byte :=
  BitVec.ofNat 8 (packBits bs)

/-- The bits of a byte in the order sent, most significant first (R159, R169). -/
def byteBits (b : Byte) : List Bool :=
  [b.getMsbD 0, b.getMsbD 1, b.getMsbD 2, b.getMsbD 3, b.getMsbD 4, b.getMsbD 5, b.getMsbD 6, b.getMsbD 7]

/-- One step of the division of R130 and R159: the remainder's top bit is compared with the next bit. -/
def checkStep {w : Nat} (poly r : BitVec w) (bit : Bool) : BitVec w :=
  if r.msb != bit then (r <<< 1) ^^^ poly else r <<< 1

/-- The 8-bit check of a frame over bits in the order sent (R130). -/
def frameCheckBits (bits : List Bool) : BitVec 8 :=
  bits.foldl (checkStep 0x07#8) 0#8

/-- The 16-bit check of a map page over its covered bytes, each most significant bit first (R159). -/
def mapCheck (covered : List Byte) : BitVec 16 :=
  (covered.flatMap byteBits).foldl (checkStep 0x1021#16) 0xFFFF#16

/-! ### Numbers for named values -/

/-- Bank by its byte (R181). -/
def bankOf (b : Byte) : Option BankId :=
  if b = 0#8 then some .zero else if b = 1#8 then some .one else none

/-- A bank's number. -/
def bankCode : BankId → Byte
  | .zero => 0#8
  | .one => 1#8

/-- The other bank. -/
def otherBank : BankId → BankId
  | .zero => .one
  | .one => .zero

/-- Position by its byte (R181). -/
def positionOf (b : Byte) : Option Position :=
  if b = 0#8 then some .low else if b = 1#8 then some .middle else if b = 2#8 then some .high else none

/-- A position's number (R1). -/
def Position.code : Position → Nat
  | .low => 0
  | .middle => 1
  | .high => 2

/-- Response codes (R173). -/
def Response.code : Response → Byte
  | .accepted => 0x00#8
  | .unknownCommand => 0x01#8
  | .badLength => 0x02#8
  | .badAddress => 0x03#8
  | .badValue => 0x04#8
  | .tagInUse => 0x05#8
  | .noSuchTag => 0x06#8
  | .noSlot => 0x07#8
  | .queueFull => 0x08#8
  | .wrongState => 0x09#8
  | .outputEmpty => 0x0A#8
  | .alreadyDone => 0x0B#8

/-- Outcome codes (R182). -/
def OpOutcome.code : OpOutcome → Byte
  | .ok => 0x00#8
  | .erasedPage => 0x01#8
  | .coarseOnly => 0x02#8
  | .torn => 0x03#8
  | .programFail => 0x04#8
  | .eraseFail => 0x05#8
  | .retired => 0x06#8
  | .notErased => 0x07#8
  | .notOpen => 0x08#8
  | .orderError => 0x09#8
  | .openBlockBusy => 0x0A#8
  | .stagingIncomplete => 0x0B#8
  | .mapLost => 0x0C#8
  | .budgetTimeout => 0x0D#8
  | .aborted => 0x0E#8

/-- Kind codes of a completion record (R182). -/
def HostOp.code : HostOp → Byte
  | .read _ _ => 1#8
  | .program _ => 2#8
  | .finish => 3#8
  | .erase _ => 4#8

/-- Failed-pass codes; 0 absent (R182). -/
def failedPassCode : Option PassKind → Byte
  | none => 0#8
  | some .coarse => 1#8
  | some .fine => 2#8

/-- Station state codes (R183). -/
def StationState.code : StationState → Byte
  | .unconfigured => 0#8
  | .configured => 1#8
  | .solo => 2#8
  | .learning => 3#8
  | .inService => 4#8
  | .leaving => 5#8
  | .idConflict => 6#8
  | .configMismatch => 7#8
  | .rxFault => 8#8
  | .txFault => 9#8

/-- Map state codes (R183). -/
def MapState.code : MapState → Byte
  | .loading => 0#8
  | .loaded => 1#8
  | .lost => 2#8
  | .degraded => 3#8

/-- Cause codes (R183). -/
def Cause.code : Cause → Byte
  | .factory => 1#8
  | .programFail => 2#8
  | .eraseFail => 3#8

/-- A cause by its byte (R184). -/
def causeOf (b : Byte) : Option Cause :=
  if b = 1#8 then some .factory else if b = 2#8 then some .programFail else if b = 3#8 then some .eraseFail else none

/-- Current-map-block codes; 0 none (R183). -/
def mapBlockCode : Option MapBlock → Byte
  | none => 0#8
  | some .a => 1#8
  | some .b => 2#8

/-- Bus use by its byte (R181). -/
def busUseOf (b : Byte) : Option BusUse :=
  if b = 0#8 then some .shared else if b = 1#8 then some .solo else none

/-- Bus use codes (R181). -/
def BusUse.code : BusUse → Byte
  | .shared => 0#8
  | .solo => 1#8

/-- An optional number as a byte, with the value that stands for absence. -/
def optByte (absent : Byte) : Option Nat → Byte
  | none => absent
  | some n => BitVec.ofNat 8 n

/-! ### The completion record (R182) -/

/-- The word line a record carries: READ and PROGRAM only (R27). -/
def HostOp.wordLine? : HostOp → Option Nat
  | .read w _ => some w
  | .program w => some w
  | .finish => none
  | .erase _ => none

/-- The position a record carries: READ only (R27). -/
def HostOp.position? : HostOp → Option Nat
  | .read _ p => some p.code
  | .program _ => none
  | .finish => none
  | .erase _ => none

/-- The suspension count a record carries: ERASE only (R27). -/
def Completion.suspensions? (r : Completion) : Option Nat :=
  match r.op with
  | .erase _ => some r.suspensions
  | .read _ _ => none
  | .program _ => none
  | .finish => none

/-- The flags byte of a record (R182). -/
def RecordFlags.byte (f : RecordFlags) : Byte :=
  bitsByte [f.fromPending, f.mapWritten, f.listFull, f.mapDegraded, f.budgetWaited, f.arrayTouched]

/-- The 13 bytes of a completion record (R182). -/
def Completion.bytes (r : Completion) : List Byte :=
  [r.tag, r.op.code, bankCode r.bank] ++ bytes16 r.block ++
    [optByte 0xFF#8 r.op.wordLine?, optByte 0xFF#8 r.op.position?, r.outcome.code, failedPassCode r.failedPass,
      optByte 0xFF#8 r.failedWordLine, BitVec.ofNat 8 r.pulses, optByte 0xFF#8 r.suspensions?, r.flags.byte]

/-! ### The map page (R159, R184) -/

/-- The bytes of one entry. -/
def RetiredEntry.bytes (e : RetiredEntry) : List Byte :=
  bytes16 e.block ++ [e.cause.code]

/-- The bytes of a map page up to its last entry (R184). -/
def mapPageBytes (seq : BitVec 32) (entries : List RetiredEntry) : List Byte :=
  let head := bytes32 seq ++ [BitVec.ofNat 8 entries.length]
  let body := entries.flatMap RetiredEntry.bytes
  head ++ bytes16 (mapCheck (head ++ body)).toNat ++ body

/-- Bytes as a page: the listed ones from offset 0, 0xFF beyond. -/
def pageOfBytes (bs : List Byte) : Page :=
  pageWrite [] 0 bs

/-- The map page holding a list (R159, R184). -/
def mapPage (seq : BitVec 32) (entries : List RetiredEntry) : Page :=
  pageOfBytes (mapPageBytes seq entries)

/-- One entry read from its three bytes: a block from 0 to 2045 and one of the three causes (R159). -/
def entryOf (p : Page) (offset : Nat) : Option RetiredEntry :=
  let block := be16 (pageByte p offset) (pageByte p (offset + 1))
  match causeOf (pageByte p (offset + 2)) with
  | none => none
  | some cause => if block < hostBlocks then some ⟨block, cause⟩ else none

/-- `n` entries read from an offset on; none where one of them is out of range. -/
def entriesOf (p : Page) (offset : Nat) : Nat → Option (List RetiredEntry)
  | 0 => some []
  | n + 1 =>
    match entryOf p offset, entriesOf p (offset + 3) n with
    | some e, some es => some (e :: es)
    | _, _ => none

/-- Whether no block appears twice in a list (R159). -/
def distinctBlocks (es : List RetiredEntry) : Bool :=
  decide (es.map RetiredEntry.block).Nodup

/-- The tests 2 to 4 of R159 on a page as read: its sequence number and its entries, or none where a test fails. -/
def readMapPage (p : Page) : Option (BitVec 32 × List RetiredEntry) :=
  let head := pageBytesAt p 0 5
  let count := (pageByte p 4).toNat
  if retiredLimit < count then none
  else
    match entriesOf p 7 count with
    | none => none
    | some es =>
      if distinctBlocks es ∧
          mapCheck (head ++ pageBytesAt p 7 (3 * count)) = pageByte p 5 ++ pageByte p 6 then
        some (pageByte p 0 ++ pageByte p 1 ++ pageByte p 2 ++ pageByte p 3, es)
      else none

/-! ### The budget bus frame (R127 to R130, R184). Bit k of the frame is bit 54 - k of the line. -/

/-- Bit `k` of a frame, counted from its start bit; set is recessive. -/
def lineBit (l : Line) (k : Nat) : Bool :=
  l.getMsbD k

/-- Bits 1 to 2. -/
def lineCls (l : Line) : BitVec 2 := l.extractLsb' 52 2

/-- Bits 3 to 6. -/
def lineStation (l : Line) : StationId := l.extractLsb' 48 4

/-- Bits 7 to 9. -/
def lineKind (l : Line) : BitVec 3 := l.extractLsb' 45 3

/-- Bits 10 to 17. -/
def lineDigest (l : Line) : BitVec 8 := l.extractLsb' 37 8

/-- Bits 18 to 41. -/
def linePayload (l : Line) : BitVec 24 := l.extractLsb' 13 24

/-- Bits 42 to 49. -/
def lineCheck (l : Line) : BitVec 8 := l.extractLsb' 5 8

/-- Bit 50, the reject slot, reads dominant. -/
def lineRejectDominant (l : Line) : Bool := !lineBit l 50

/-- Bit 51, the objection slot, reads dominant. -/
def lineObjectionDominant (l : Line) : Bool := !lineBit l 51

/-- One of the three end bits 52 to 54 reads dominant: the frame is broken (R136). -/
def lineBroken (l : Line) : Bool := !(lineBit l 52 && lineBit l 53 && lineBit l 54)

/-- The recessive bits that close the end field, 0 to 3 (R136). -/
def lineClosingRecessive (l : Line) : Nat :=
  if lineBit l 54 then (if lineBit l 53 then (if lineBit l 52 then 3 else 2) else 1) else 0

/-- All bits of a frame in the order sent. -/
def lineBits (l : Line) : List Bool :=
  (List.range 55).map (lineBit l)

/-- A number of bits as a word, the first of them the most significant; bits that are missing are recessive. -/
def wordOfBits : (n : Nat) → List Bool → BitVec n
  | 0, _ => 0#0
  | n + 1, bits => BitVec.cons (bits.headD true) (wordOfBits n bits.tail)

/-- The line as far as its bits have been read; bits not yet read are recessive. -/
def lineOfBits (bits : List Bool) : Line := wordOfBits 55 bits

/-- The remainder over bits 1 to 41 (R130). -/
def lineRemainder (l : Line) : BitVec 8 :=
  frameCheckBits ((List.range 41).map fun k => lineBit l (k + 1))

/-- The class of each kind code; 6 and 7 name no frame (R127). -/
def classOfKind (kind : BitVec 3) : Option (BitVec 2) :=
  match kind.toNat with
  | 0 => some 3#2
  | 1 => some 2#2
  | 2 => some 0#2
  | 3 => some 0#2
  | 4 => some 1#2
  | 5 => some 1#2
  | _ => none

/-- The kind code of a payload (R127). -/
def Payload.kind : Payload → BitVec 3
  | .hello _ => 0#3
  | .claim _ _ => 1#3
  | .release _ => 2#3
  | .renew _ _ _ => 3#3
  | .evict _ _ => 4#3
  | .withdraw => 5#3

/-- The class of a payload's kind (R127). -/
def Payload.cls : Payload → BitVec 2
  | .hello _ => 3#2
  | .claim _ _ => 2#2
  | .release _ => 0#2
  | .renew _ _ _ => 0#2
  | .evict _ _ => 1#2
  | .withdraw => 1#2

/-- The 24 payload bits (R128, R184). -/
def Payload.bits : Payload → BitVec 24
  | .hello nonce => nonce ++ 0#8
  | .claim q level => q ++ level ++ 0#12
  | .release total => total ++ 0#16
  | .renew held requested level => held ++ requested ++ level ++ 0#4
  | .evict target generation => target ++ generation ++ 0#16
  | .withdraw => 0#24

/-- The payload that 24 bits carry under a kind code; none for a kind that names no frame and for a one in a zero
bit (R128). -/
def payloadOf (kind : BitVec 3) (p : BitVec 24) : Option Payload :=
  match kind.toNat with
  | 0 => if p.extractLsb' 0 8 = 0#8 then some (.hello (p.extractLsb' 8 16)) else none
  | 1 => if p.extractLsb' 0 12 = 0#12 then some (.claim (p.extractLsb' 16 8) (p.extractLsb' 12 4)) else none
  | 2 => if p.extractLsb' 0 16 = 0#16 then some (.release (p.extractLsb' 16 8)) else none
  | 3 =>
    if p.extractLsb' 0 4 = 0#4 then some (.renew (p.extractLsb' 16 8) (p.extractLsb' 8 8) (p.extractLsb' 4 4))
    else none
  | 4 => if p.extractLsb' 0 16 = 0#16 then some (.evict (p.extractLsb' 20 4) (p.extractLsb' 16 4)) else none
  | 5 => if p = 0#24 then some .withdraw else none
  | _ => none

/-- Every value a payload carries is in range for budget `b` and sender `sender` (R128). -/
def Payload.inRange (b : Nat) (sender : StationId) : Payload → Bool
  | .hello _ => true
  | .claim q _ => decide (q.toNat ≤ b)
  | .release total => decide (total.toNat ≤ b)
  | .renew held requested _ => decide (held.toNat ≤ b) && decide (requested.toNat ≤ b)
  | .evict target _ => decide (target ≠ sender)
  | .withdraw => true

/-- A frame with its check field still zero: start dominant, the verdict slots and the end released. -/
def lineWith (station : StationId) (digest : BitVec 8) (p : Payload) (check : BitVec 8) : Line :=
  0#1 ++ p.cls ++ station ++ p.kind ++ digest ++ p.bits ++ check ++ 3#2 ++ 7#3

/-- The bits a sender drives, with its check; it releases the verdict slots and the end field (R127, R130). -/
def frameLine (station : StationId) (digest : BitVec 8) (p : Payload) : Line :=
  lineWith station digest p (lineRemainder (lineWith station digest p 0#8))

/-- The digest of a configuration (R129). -/
def digestOf (budget lease : Nat) : BitVec 8 :=
  BitVec.ofNat 8 (budget + 37 * lease)

/-! ### Marks and addresses in the array (R1, R4, R5) -/

/-- No pass mark present (R5). -/
def noMarks : PassMarks := ⟨false, false, false, false⟩

/-- All four pass marks present (R5, R12). -/
def allMarks : PassMarks := ⟨true, true, true, true⟩

/-- Block 2046 for A, 2047 for B (R1). -/
def mapBlockNumber : MapBlock → Nat
  | .a => 2046
  | .b => 2047

/-- The key of a word line's marks. -/
def wordLineKey (block wordLine : Nat) : Nat :=
  block * blockWordLines + wordLine

/-- The address of a page's first byte among the bank's bytes (R1). -/
def pageBase (block wordLine : Nat) (p : Position) : Nat :=
  (wordLineKey block wordLine * 3 + p.code) * pageBytes

end Sys2Proof.Machine
end

