-- ==== Sys2Proof/Machine/State.lean ====
section
/-! DEFINITION. The state of the die as plain data, the reasons a command can stop for, and the state right after the
first die reset after shipment. -/

namespace Sys2Proof.Machine

/-- A fault stops the model at a happening that finds the bank's own fields at odds with each other. -/
inductive Fault where
  /-- Raised by the end of an array step where the bank holds no operation that the step can belong to (a coarse verify
  with no PROGRAM at the head, say). No run from reset reaches such a state. Safe: the model stops. Log entry 3. -/
  | stepWithoutOperation
deriving DecidableEq, Repr

/-- A refusal says that a happening cannot take place in the state it is given in. A host command is never refused:
the die answers each with a response code. -/
inductive Refusal where
  /-- Raised by exec for a command that has no meaning yet. Safe. -/
  | notModelled (mnemonic : String)
  /-- Raised by the end of a pulse, a sense or a verify of a kind that the bank does not have under way, where it has none
  of that kind to end (R2). Safe: the happening cannot take place. Log entry 3. -/
  | stepNotUnderWay
  /-- Raised by a timer's expiry where that timer does not run or its condition does not hold (R92, R93, R94, R98,
  R117, R148). Safe: the happening cannot take place. Log entry 3. -/
  | timerNotRunning
  /-- Raised by a die-reset happening whose source cannot begin or end: a DIE_RESET transaction that was not taken, or a
  source that is not in force (R178, R179). Safe: the happening cannot take place. Log entry 3. -/
  | resetSourceAbsent
  /-- Raised by UNKNOWN_COMMAND with one of the sixteen command codes, and by TRANSACTION_CUT with a complete command
  phase: the transaction is another row's (R170, R171, R172). Safe. Log entry 3. -/
  | anotherRow
deriving DecidableEq, Repr

/-- What a bank's array holds: its bytes by address, the pass marks by word line key and the erase-complete marks by
block. An unlisted byte reads 0xFF, an unlisted word line has no mark, an unlisted block has its erase-complete mark
(R1, R4, R6, R17). A die reset leaves it as it stands (R15). -/
structure ArrayBank where
  cells : Store Byte
  marks : Store PassMarks
  eraseMarks : Store Bool
deriving DecidableEq, Repr

/-- A bank: its array, its bank engine, its queue and its block map unit. -/
structure Bank where
  array : ArrayBank
  /-- the bank queue, the head operation first (R22) -/
  queue : List Slot
  /-- the internal operation standing ahead (R23) -/
  internal : Option Internal
  /-- the array step under way (R2) -/
  step : Option Step
  /-- the programming pass in progress or next to begin (R58 to R62) -/
  pass : Option Pass
  /-- the pulses given in that pass (R9, R10) -/
  passPulses : Nat
  /-- a pause order has reached the bank and waits for its boundary (R96) -/
  pauseOrder : Bool
  /-- the staging buffer (R49) -/
  staging : Trio StagingSlot
  /-- the program latch; none: empty (R51) -/
  latch : Option (Trio Page)
  /-- the pending slot; none: empty (R53) -/
  pendingSlot : Option PendingSlot
  /-- the open-block record (R52) -/
  openBlock : Option OpenBlock
  /-- the sense latch; none: empty (R39) -/
  senseLatch : Option SenseResult
  /-- the output buffer (R40) -/
  output : OutputBuffer
  /-- the retired list, oldest entry first (R157) -/
  retired : List RetiredEntry
  /-- the map state (R158) -/
  mapState : MapState
  /-- the current map block; none: none (R158) -/
  mapBlock : Option MapBlock
  /-- the next map page, 0 to 64 (R158) -/
  nextMapPage : Nat
  /-- the map sequence number (R158) -/
  mapSeq : BitVec 32
  /-- the map failure run, 0 to 3 (R158) -/
  mapFailureRun : Nat
deriving DecidableEq, Repr

/-- The budget controller (R143, R144). -/
structure Controller where
  station : StationState
  id : StationId
  nonce : Nonce
  /-- bus use, B, L and W; none before CONFIGURE (R145) -/
  settings : Option Settings
  /-- the digest computed at CONFIGURE (R129) -/
  digest : BitVec 8
  /-- the budget table (R101) -/
  table : PerStation Entry
  /-- the transmit set (R137) -/
  transmit : TransmitSet
  /-- the renewal timer; none: not running (R93) -/
  renewal : Option Nat
  /-- LAPSED (R94) -/
  lapsed : Bool
  /-- the release hold-off; none: not running (R92) -/
  holdOff : Option Nat
  /-- the learning window; none: not open (R148) -/
  window : Option Nat
  /-- DIVERGED (R116) -/
  diverged : Bool
deriving DecidableEq, Repr

/-- The budget bus port (R124). -/
structure Port where
  framing : Framing
  recessiveCount : Nat
  dominantCount : Nat
  stuck : Bool
  /-- the frame of the current attempt; none: not sending. How far it has been sent follows from it and the bits read so
  far, and an attempt lost in the class or id field ends at the idle after the loss (R124, R138, R139) -/
  sending : Option Attempt
  rejectionRun : Nat
  rejectRun : Nat
  /-- the station's own judgement of the CLAIM whose check field has ended: it fits; none: nothing judged (R115) -/
  judgement : Option Bool
  /-- the station drives the reject slot of the frame dominant: fixed at the end of the check field, and left as it was after
  the frame (R134) -/
  droveReject : Bool
  /-- the station drove the objection slot of the frame dominant: fixed with the slot, and left as it was after the frame
  (R135) -/
  droveObjection : Bool
deriving DecidableEq, Repr

/-- The host link interface (R169 to R180). -/
structure Link where
  stationNews : Bool
  divergedNews : Bool
  mapNews0 : Bool
  mapNews1 : Bool
  /-- the response bytes of the last command taken: its code, then its data (R170) -/
  response : List Byte
  /-- a DIE_RESET has been taken and its transaction has not ended (R179) -/
  resetTaken : Bool
  /-- HSEL_N was low when the reset ended and has not risen since (R180) -/
  awaitRise : Bool
deriving DecidableEq, Repr

/-- The sources that hold the die in reset (R178). -/
structure ResetHold where
  powerOn : Bool
  pin : Bool
  command : Bool
deriving DecidableEq, Repr

/-- The state of one DX24. -/
structure State where
  bank0 : Bank
  bank1 : Bank
  /-- the completion queue, oldest first (R28) -/
  completions : List DoneSlot
  ctl : Controller
  port : Port
  link : Link
  inReset : ResetHold
  /-- the model's own counter of free values drawn so far (log entry 15) -/
  fresh : Nat
  /-- the model's own queue of commands that wait to be taken, first in, first out -/
  pending : List Instr
  /-- the model's own: the bits that BDAT is going to be read at, the next one first; `true` is recessive (log entry 1) -/
  wire : List Bool
deriving DecidableEq, Repr

/-! ### The die-reset state -/

/-- An empty staging slot (R49). -/
def emptyStaging : Trio StagingSlot := ⟨⟨false, []⟩, ⟨false, []⟩, ⟨false, []⟩⟩

/-- A scan before its first sense: block A, word line 0 (R160). -/
def scanStart : Scan := ⟨.a, 0, none, none, none⟩

/-- A bank as a die reset leaves it over a given array: every store empty, MAP_LOAD ahead, the map LOADING
(R34, R48, R69, R158, R160). -/
def Bank.afterReset (array : ArrayBank) : Bank :=
  { array := array, queue := [], internal := some ⟨.mapLoad scanStart, false⟩, step := none, pass := none
    passPulses := 0, pauseOrder := false, staging := emptyStaging, latch := none, pendingSlot := none
    openBlock := none, senseLatch := none, output := ⟨none, []⟩, retired := [], mapState := .loading
    mapBlock := none, nextMapPage := 0, mapSeq := 0#32, mapFailureRun := 0 }

/-- An entry of a cleared table (R102). -/
def clearedEntry : Entry := ⟨false, 0, none, 0#4, 0, none⟩

/-- A cleared table (R102). -/
def clearedTable : PerStation Entry := Vector.replicate 16 clearedEntry

/-- An empty transmit set (R137). -/
def emptyTransmit : TransmitSet :=
  ⟨false, false, false, false, false, Vector.replicate 16 none⟩

/-- The budget controller after a die reset, with the id sampled and the nonce drawn (R144). -/
def Controller.afterReset (id : StationId) (nonce : Nonce) : Controller :=
  { station := .unconfigured, id := id, nonce := nonce, settings := none, digest := 0#8, table := clearedTable
    transmit := emptyTransmit, renewal := none, lapsed := false, holdOff := none, window := none, diverged := false }

/-- The port after a die reset (R124). -/
def Port.afterReset : Port :=
  { framing := .outOfFrame, recessiveCount := 0, dominantCount := 0, stuck := false, sending := none
    rejectionRun := 0, rejectRun := 0, judgement := none, droveReject := false, droveObjection := false }

/-- The host link interface after a die reset (R180). -/
def Link.afterReset (hselLow : Bool) : Link :=
  { stationNews := false, divergedNews := false, mapNews0 := false, mapNews1 := false, response := []
    resetTaken := false, awaitRise := hselLow }

/-- No source holds the die in reset. -/
def ResetHold.none : ResetHold := ⟨false, false, false⟩

/-! ### The state right after the first die reset after shipment -/

/-- The array as shipped, with an empty factory retired list: map block A's word line 0 is FINE and its low page holds
map page 1; everything else is erased (R17, log entry 6). -/
def factoryArray : ArrayBank :=
  { cells := Store.blit blankByte [] (pageBase 2046 0 .low) pageBytes (mapPage 1#32 [])
    marks := [(wordLineKey 2046 0, allMarks)]
    eraseMarks := [] }

/-- The die right after the first die reset after shipment (R17, R178, log entries 5 and 6). -/
def State.reset : State :=
  { bank0 := Bank.afterReset factoryArray
    bank1 := Bank.afterReset factoryArray
    completions := []
    ctl := Controller.afterReset 0#4 0#16
    port := Port.afterReset
    link := Link.afterReset false
    inReset := ResetHold.none
    fresh := 0
    pending := []
    wire := [] }

end Sys2Proof.Machine
end

