-- ==== Sys2Proof/Machine/Flags.lean ====
section
/-! DEFINITION. Conditions and flags: what the marks say of a word line and a block, the outcome of a sense, the flags
of a completion record, the news flags and ATTN_N. -/

namespace Sys2Proof.Machine

/-- A word line's condition from its four marks (R5). A set of marks that the array never forms (R5) is read by its
leading part (log entry 22). -/
def PassMarks.condition (m : PassMarks) : WordLineCondition :=
  if !m.coarseBegun then .erased
  else if !m.coarseDone then .coarsePartial
  else if !m.fineBegun then .coarse
  else if !m.fineDone then .finePartial
  else .fine

/-- The marks form one of the five sets of R5. -/
def PassMarks.legal (m : PassMarks) : Bool :=
  (m.coarseBegun || !m.coarseDone) && (m.coarseDone || !m.fineBegun) && (m.fineBegun || !m.fineDone)

/-- How many of the marks are present, for a legal set (R5). -/
def PassMarks.count (m : PassMarks) : Nat :=
  m.coarseBegun.toNat + m.coarseDone.toNat + m.fineBegun.toNat + m.fineDone.toNat

/-- The legal set of `n` marks (R5). -/
def marksOfCount (n : Nat) : PassMarks :=
  ⟨decide (1 ≤ n), decide (2 ≤ n), decide (3 ≤ n), decide (4 ≤ n)⟩

/-- The outcome of a sensed page, first line that applies (R14). -/
def senseOutcome (eraseComplete : Bool) (c : WordLineCondition) : OpOutcome :=
  if !eraseComplete then .torn
  else
    match c with
    | .erased => .erasedPage
    | .coarsePartial => .torn
    | .coarse => .coarseOnly
    | .finePartial => .torn
    | .fine => .ok

/-- All six flags of a record clear. -/
def noFlags : RecordFlags := ⟨false, false, false, false, false, false⟩

/-- FROM_PENDING alone (R36). -/
def fromPendingFlag : RecordFlags := { noFlags with fromPending := true }

/-- MAP_WRITTEN alone (R166). -/
def mapWrittenFlag : RecordFlags := { noFlags with mapWritten := true }

/-- MAP_DEGRADED alone (R166). -/
def mapDegradedFlag : RecordFlags := { noFlags with mapDegraded := true }

/-- LIST_FULL, with MAP_DEGRADED as well on a DEGRADED bank (R162). -/
def listFullFlag (degraded : Bool) : RecordFlags :=
  { noFlags with listFull := true, mapDegraded := degraded }

/-- The flags of a slot's record: those of its ending with the two the slot has gathered (R27). -/
def Slot.recordFlags (sl : Slot) (f : RecordFlags) : RecordFlags :=
  { f with budgetWaited := sl.budgetWaited, arrayTouched := sl.arrayTouched }

/-- Whether some source holds the die in reset (R178). -/
def State.heldInReset (s : State) : Bool :=
  s.inReset.powerOn || s.inReset.pin || s.inReset.command

/-- Whether some news flag is set (R176). -/
def Link.anyNews (l : Link) : Bool :=
  l.stationNews || l.divergedNews || l.mapNews0 || l.mapNews1

/-- ATTN_N is asserted: a record waits or a news flag is set, and the die is not in reset (R177). -/
def State.attentionAsserted (s : State) : Bool :=
  !s.heldInReset && (!s.completions.isEmpty || s.link.anyNews)

/-- The news flags' byte of the status view (R183). -/
def Link.newsByte (l : Link) : Byte :=
  bitsByte [l.stationNews, l.divergedNews, l.mapNews0, l.mapNews1]

/-- Raise a bank's map news flag (R176). -/
def Link.raiseMapNews (l : Link) : BankId → Link
  | .zero => { l with mapNews0 := true }
  | .one => { l with mapNews1 := true }

/-- Whether a map state is one whose entry raises map news (R158). -/
def MapState.isNews : MapState → Bool
  | .loading => false
  | .loaded => false
  | .lost => true
  | .degraded => true

end Sys2Proof.Machine
end

