-- ==== Sys2Proof/Machine/Ops.lean ====
section
/-! DEFINITION. The named operations over the array, the slots and queues, the banks and the link, which every meaning
is made of. -/

namespace Sys2Proof.Machine

/-! ### The array (chapter 1) -/

/-- The marks of a word line (R4). -/
def ArrayBank.marksOf (a : ArrayBank) (block wordLine : Nat) : PassMarks :=
  Store.get noMarks a.marks (wordLineKey block wordLine)

/-- Write a word line's marks (R4). -/
def ArrayBank.setMarks (a : ArrayBank) (block wordLine : Nat) (m : PassMarks) : ArrayBank :=
  { a with marks := Store.set noMarks a.marks (wordLineKey block wordLine) m }

/-- A word line's condition (R5). -/
def ArrayBank.condition (a : ArrayBank) (block wordLine : Nat) : WordLineCondition :=
  (a.marksOf block wordLine).condition

/-- The erase-complete mark of a block is present (R6). -/
def ArrayBank.eraseComplete (a : ArrayBank) (block : Nat) : Bool :=
  Store.get true a.eraseMarks block

/-- Write or remove a block's erase-complete mark (R6). -/
def ArrayBank.setEraseComplete (a : ArrayBank) (block : Nat) (present : Bool) : ArrayBank :=
  { a with eraseMarks := Store.set true a.eraseMarks block present }

/-- The 4,416 bytes that the cells of a page were last given (R1). -/
def ArrayBank.page (a : ArrayBank) (block wordLine : Nat) (p : Position) : Page :=
  Store.slice a.cells (pageBase block wordLine p) pageBytes

/-- Give a page's cells its bytes. -/
def ArrayBank.writePage (a : ArrayBank) (block wordLine : Nat) (p : Position) (page : Page) : ArrayBank :=
  { a with cells := Store.blit blankByte a.cells (pageBase block wordLine p) pageBytes page }

/-- Give a word line's three pages their bytes (R9, R10). -/
def ArrayBank.writeWordLine (a : ArrayBank) (block wordLine : Nat) (pages : Trio Page) : ArrayBank :=
  ((a.writePage block wordLine .low pages.low).writePage block wordLine .middle pages.middle).writePage
    block wordLine .high pages.high

/-- The end of the first erase pulse of an erase: no mark on any word line of the block and every byte 0xFF (R8). -/
def ArrayBank.clearBlock (a : ArrayBank) (block : Nat) : ArrayBank :=
  { a with
    cells := Store.clear a.cells (pageBase block 0 .low) (blockWordLines * 3 * pageBytes)
    marks := Store.clear a.marks (wordLineKey block 0) blockWordLines }

/-- A die reset cuts the first erase pulse of a block: of each word line's marks a leading part may remain, and of the
block's bytes some may (R16). What remains is free (log entry 15). -/
def ArrayBank.cutErase (a : ArrayBank) (block cut : Nat) : ArrayBank :=
  let lo := wordLineKey block 0
  let base := pageBase block 0 .low
  { a with
    cells := a.cells.filter fun c =>
      decide (c.1 < base) || decide (base + blockWordLines * 3 * pageBytes ≤ c.1) || Config.byteRemains cut c.1
    marks := a.marks.filterMap fun c =>
      if c.1 < lo ∨ lo + blockWordLines ≤ c.1 then some c
      else
        let kept := marksOfCount (min (Config.marksRemaining cut c.1) c.2.count)
        if kept = noMarks then none else some (c.1, kept) }

/-- Whether the block is one of the bank's map blocks (R1). -/
def isMapBlock (block : Nat) : Bool :=
  decide (hostBlocks ≤ block)

/-- The bytes a sense returns: 0xFF for an erased word line, the programmed bytes for a FINE word line of a host block,
and otherwise whatever the cells give, `cells`, or what they were last given where that is `none` (R12, R14). -/
def ArrayBank.sensedPage (a : ArrayBank) (block wordLine : Nat) (p : Position) (cells : Option Page) : Page :=
  let stored := a.page block wordLine p
  if a.eraseComplete block then
    match a.condition block wordLine with
    | .erased => []
    | .fine => if isMapBlock block then cells.getD stored else stored
    | .coarsePartial => cells.getD stored
    | .coarse => cells.getD stored
    | .finePartial => cells.getD stored
  else cells.getD stored

/-- What a sense of a page returns, with the outcome derived from it (R13, R14). -/
def ArrayBank.sense (a : ArrayBank) (block wordLine : Nat) (p : Position) (cells : Option Page) (owner : SenseOwner) :
    SenseResult :=
  { page := a.sensedPage block wordLine p cells
    marks := a.marksOf block wordLine
    eraseComplete := a.eraseComplete block
    outcome := senseOutcome (a.eraseComplete block) (a.condition block wordLine)
    owner := owner }

/-! ### Slots and queues (chapter 2) -/

/-- A slot as a post fills it (R18, R21). -/
def Slot.posted (tag : Byte) (op : HostOp) (bank : BankId) (block : Nat) : Slot :=
  { tag := tag, op := op, bank := bank, block := block, state := .queued, stopRequest := false, waitTime := 0
    suspensions := 0, pulses := 0, budgetWaited := false, arrayTouched := false, path := none, failure := none }

/-- Entry into WAITING: the wait-time accumulator restarts (R25). -/
def Slot.enterWaiting (sl : Slot) : Slot :=
  { sl with state := .waiting, waitTime := 0 }

/-- Entry into HELD: the accumulator restarts and BUDGET_WAITED is set (R25, R96). -/
def Slot.enterHeld (sl : Slot) : Slot :=
  { sl with state := .held, waitTime := 0, budgetWaited := true }

/-- The completion record written from a slot that ends (R26, R27). -/
def Slot.record (sl : Slot) (outcome : OpOutcome) (f : RecordFlags) : Completion :=
  { tag := sl.tag, op := sl.op, bank := sl.bank, block := sl.block, outcome := outcome
    failedPass := sl.failure.bind Failure.failedPass
    failedWordLine := sl.failure.bind Failure.failedWordLine
    pulses := sl.pulses, suspensions := sl.suspensions, flags := sl.recordFlags f }

/-- A slot that becomes DONE with its record (R26). -/
def Slot.finish (sl : Slot) (outcome : OpOutcome) (f : RecordFlags) : DoneSlot :=
  { slot := { sl with state := .done, stopRequest := false }, record := sl.record outcome f }

/-- A RECORDING slot that ends with the outcome fixed at its failure (R26). -/
def Slot.finishRecording (sl : Slot) (f : RecordFlags) : DoneSlot :=
  sl.finish ((sl.failure.map Failure.outcome).getD .programFail) f

/-- A READ (R18). -/
def Slot.isRead (sl : Slot) : Bool :=
  match sl.op with
  | .read _ _ => true
  | .program _ => false
  | .finish => false
  | .erase _ => false

/-- A slot with a tag, in a bank queue (R20). -/
def findTag (tag : Byte) (q : List Slot) : Option Slot :=
  q.find? fun sl => sl.tag == tag

/-- Change the slot with a tag. -/
def updateTag (tag : Byte) (f : Slot → Slot) (q : List Slot) : List Slot :=
  q.map fun sl => if sl.tag = tag then f sl else sl

/-- The queue without the slot of a tag; the others close up in their order (R22). -/
def removeTag (tag : Byte) (q : List Slot) : List Slot :=
  q.filter fun sl => sl.tag != tag

/-- The READ taken to run during an erase suspension, among the operations behind the ERASE (R77). -/
def overtaker (behind : List Slot) : Option Slot :=
  behind.find? fun sl => sl.state == .waiting || sl.state == .running

/-- The nearest candidate READ behind an ERASE of a block: before the first PROGRAM, FINISH or ERASE, not of that
block (R76). -/
def candidate (block : Nat) (behind : List Slot) : Option Slot :=
  (behind.takeWhile Slot.isRead).find? fun sl => sl.state == .queued && sl.block != block

/-- A bank in the course of one change, with the slots that have ended in it, in order (R26). -/
structure Turn where
  bank : Bank
  ended : List DoneSlot
deriving DecidableEq, Repr

/-- A change that ends no operation. -/
def Turn.of (bk : Bank) : Turn := ⟨bk, []⟩

/-- The slot of `sl`'s tag leaves the queue and its record is written (R26). -/
def Bank.endSlot (bk : Bank) (sl : Slot) (outcome : OpOutcome) (f : RecordFlags) : Turn :=
  ⟨{ bk with queue := removeTag sl.tag bk.queue }, [sl.finish outcome f]⟩

/-! ### The output buffer (chapter 3) -/

/-- The output buffer is free (R40). -/
def Bank.outputFree (bk : Bank) : Bool := bk.output.holder.isNone

/-- A READ's page enters the output buffer under its tag and the READ ends (R36, R41). -/
def Bank.completeRead (bk : Bank) (sl : Slot) (page : Page) (outcome : OpOutcome) (f : RecordFlags) : Turn :=
  ({ bk with output := ⟨some sl.tag, page⟩ }).endSlot sl outcome f

/-! ### The open block (chapter 4) -/

/-- The pending word line of an open-block record: next word line − 1 (R52). -/
def OpenBlock.pendingWordLine (r : OpenBlock) : Nat := r.next - 1

/-- The record is dropped and the pending slot emptied, in one change (R53). -/
def Bank.dropOpenBlock (bk : Bank) : Bank :=
  { bk with openBlock := none, pendingSlot := none }

/-- The effects of a failure or of a stop after the first pulse of a PROGRAM or FINISH: latch discarded, record dropped,
pending slot emptied (R64, R65, R66, R67). -/
def Bank.dropStores (bk : Bank) : Bank :=
  { bk.dropOpenBlock with latch := none, pass := none, passPulses := 0 }

/-- The bank's open-block record names the block (R52). -/
def Bank.opens (bk : Bank) (block : Nat) : Bool :=
  match bk.openBlock with
  | none => false
  | some r => r.block == block

/-- The block is in the bank's retired list (R157). -/
def Bank.isRetired (bk : Bank) (block : Nat) : Bool :=
  bk.retired.any fun e => e.block == block

/-- A block's condition, first line that applies (R7). -/
def Bank.blockCondition (bk : Bank) (block : Nat) : BlockCondition :=
  if bk.isRetired block then .retired
  else if !bk.array.eraseComplete block then .unclean
  else if bk.array.condition block 0 = .erased then .erased
  else .written

/-! ### The state -/

/-- One of the two banks. -/
def State.bank (s : State) : BankId → Bank
  | .zero => s.bank0
  | .one => s.bank1

/-- One of the two banks replaced. -/
def State.setBank (s : State) (b : BankId) (bk : Bank) : State :=
  match b with
  | .zero => { s with bank0 := bk }
  | .one => { s with bank1 := bk }

/-- A bank's change takes effect: its records join the completion queue at the tail (R26, R28). -/
def State.withTurn (s : State) (b : BankId) (t : Turn) : State :=
  { s.setBank b t.bank with completions := s.completions ++ t.ended }

/-- The slots that are not FREE (R19). -/
def State.slotsInUse (s : State) : Nat :=
  s.bank0.queue.length + s.bank1.queue.length + s.completions.length

/-- The tags held by slots that are not FREE (R20). -/
def State.tagsInUse (s : State) : List Byte :=
  s.bank0.queue.map Slot.tag ++ s.bank1.queue.map Slot.tag ++ s.completions.map fun d => d.slot.tag

/-- The bank whose queue holds the tag (R30). -/
def State.bankOfTag (s : State) (tag : Byte) : Option BankId :=
  if (findTag tag s.bank0.queue).isSome then some .zero
  else if (findTag tag s.bank1.queue).isSome then some .one
  else none

/-! ### The host link (chapter 11) -/

/-- The response of the command being taken: its code alone (R170). -/
def State.answer (s : State) (r : Response) : State :=
  { s with link := { s.link with response := [r.code] } }

/-- The response of an accepted command that returns data (R170). -/
def State.answerData (s : State) (data : List Byte) : State :=
  { s with link := { s.link with response := Response.accepted.code :: data } }

/-- What HDO carries in the first `positions` byte positions of a transaction whose command phase takes `command` of them:
0xFF in the command phase, then the response, then 0xFF. `response` is none where no command is taken (R170, R178). -/
def hdoBytes (response : Option (List Byte)) (command positions : Nat) : List Byte :=
  (List.replicate command 0xFF#8 ++ response.getD [] ++ List.replicate positions 0xFF#8).take positions

/-- The level of HDO at a bit of a transaction, counted from 0; none while HDO is not driven: HSEL_N is high or the die is in
reset (R169, R170, R178). -/
def State.hdo (s : State) (hselLow : Bool) (response : Option (List Byte)) (command bit : Nat) : Option Bool :=
  if hselLow && !s.heldInReset then ((hdoBytes response command (bit / 8 + 1)).flatMap byteBits)[bit]? else none

/-- Take a command's transaction. In reset the die takes none (R178), after DIE_RESET no further one (R179), and the
transaction that straddles the end of a reset is not read (R180). Otherwise the command acts. Log entries 17 and 18. -/
def State.transaction (s : State) (act : State → State) : Host.Outcome State Fault Refusal :=
  if s.heldInReset || s.link.resetTaken then .next s
  else if s.link.awaitRise then .next { s with link := { s.link with awaitRise := false } }
  else .next (act s)

/-- A happening inside the die, which none is while it is held in reset (R178). -/
def State.happening (s : State) (enabled : Bool) (otherwise : Refusal) (act : State → State) :
    Host.Outcome State Fault Refusal :=
  if s.heldInReset || !enabled then .refused otherwise else .next (act s)

end Sys2Proof.Machine
end

