-- ==== Sys2Proof/Machine/Operands.lean ====
section
/-! DEFINITION. The operand forms: the parameter bytes of each host command, read in the order of the Formats chapter
and judged in the order of the command's own rule. -/

namespace Sys2Proof.Machine

/-- The parameters of CONFIGURE as bytes (R181). -/
structure ConfigureParams where
  busUse : Byte
  budget : Byte
  lease : Byte
  waitLimit : Byte
deriving DecidableEq, Repr

/-- Read CONFIGURE's four bytes; none: wrong length (R181). -/
def configureParams : List Byte → Option ConfigureParams
  | [u, b, l, w] => some ⟨u, b, l, w⟩
  | _ => none

/-- The range check of CONFIGURE (R145, check 3). -/
def ConfigureParams.settings (p : ConfigureParams) : Option Settings :=
  match busUseOf p.busUse with
  | none => none
  | some use =>
    if 6 ≤ p.budget.toNat ∧ p.budget.toNat ≤ 240 ∧ 1 ≤ p.lease.toNat ∧ p.lease.toNat ≤ 16 then
      some ⟨use, p.budget.toNat, p.lease.toNat, p.waitLimit.toNat⟩
    else none

/-- A post as it is judged: its tag, and the addressed operation where every address field is in range (R21). -/
structure Post where
  tag : Byte
  target : Option (BankId × Nat × HostOp)
deriving DecidableEq, Repr

/-- Check 2 of a post on bank and block, with the operation where its own fields are in range (R21). -/
def postTarget (bank hi lo : Byte) (op : Option HostOp) : Option (BankId × Nat × HostOp) :=
  match bankOf bank, op with
  | some b, some o => if be16 hi lo < hostBlocks then some (b, be16 hi lo, o) else none
  | _, _ => none

/-- A word line byte in range (R21). -/
def wordLineOf (w : Byte) : Option Nat :=
  if w.toNat < blockWordLines then some w.toNat else none

/-- POST_READ: tag, bank, block, word line, position (R181). -/
def readPost : List Byte → Option Post
  | [tag, bank, hi, lo, w, p] =>
    some ⟨tag, postTarget bank hi lo
      (match wordLineOf w, positionOf p with
        | some w, some p => some (.read w p)
        | _, _ => none)⟩
  | _ => none

/-- POST_PROGRAM: tag, bank, block, word line (R181). -/
def programPost : List Byte → Option Post
  | [tag, bank, hi, lo, w] => some ⟨tag, postTarget bank hi lo ((wordLineOf w).map .program)⟩
  | _ => none

/-- POST_FINISH: tag, bank, block (R181). -/
def finishPost : List Byte → Option Post
  | [tag, bank, hi, lo] => some ⟨tag, postTarget bank hi lo (some .finish)⟩
  | _ => none

/-- POST_ERASE: tag, bank, block, suspendable, where 0 is no and any other value yes (R181). -/
def erasePost : List Byte → Option Post
  | [tag, bank, hi, lo, susp] => some ⟨tag, postTarget bank hi lo (some (.erase (susp != 0#8)))⟩
  | _ => none

/-- Commands that carry one byte (R181). -/
def oneByte : List Byte → Option Byte
  | [b] => some b
  | _ => none

/-- The parameters of FETCH_OUTPUT: bank, offset, length (R181). -/
def fetchParams : List Byte → Option (Byte × Nat × Nat)
  | [bank, o1, o0, l1, l0] => some (bank, be16 o1 o0, be16 l1 l0)
  | _ => none

/-- The parameters of LOAD_STAGING, where the count is 6 plus the value of the length field (R171, R181). -/
structure LoadParams where
  bank : Byte
  position : Byte
  offset : Nat
  length : Nat
  data : List Byte
deriving DecidableEq, Repr

/-- Read LOAD_STAGING's bytes; none: the count is below 6 or is not 6 plus the length field (R171). -/
def loadParams : List Byte → Option LoadParams
  | bank :: position :: o1 :: o0 :: l1 :: l0 :: data =>
    if data.length = be16 l1 l0 then some ⟨bank, position, be16 o1 o0, be16 l1 l0, data⟩ else none
  | _ => none

/-- The range check of a transfer: 1 ≤ length ≤ 512 and offset + length ≤ 4,416 (R43, R50). -/
def transferInRange (offset length : Nat) : Bool :=
  decide (1 ≤ length) && decide (length ≤ transferLimit) && decide (offset + length ≤ pageBytes)

end Sys2Proof.Machine
end

