-- ==== Sys2Proof/WellFormed.lean ====
section
/-! DEFINITION. What makes a command or a happening well formed: the bytes a transaction can carry, and bytes that cells
can give. -/

namespace Sys2Proof

/-- The sixteen command codes (R171, R181). -/
def commandCodes : List Byte :=
  [0x11#8, 0x12#8, 0x13#8, 0x21#8, 0x22#8, 0x23#8, 0x24#8, 0x2F#8, 0x31#8, 0x32#8, 0x33#8, 0x41#8, 0x42#8, 0x43#8, 0x44#8,
    0x5A#8]

/-- The parameter count fits the 2-byte count field (R170). -/
def countFits (params : List Byte) : Bool := decide (params.length ≤ 65535)

/-- The bytes clocked in make a complete command phase: a code, a count and as many parameter bytes (R170). -/
def commandComplete : List Byte → Bool
  | _ :: hi :: lo :: params => decide (Machine.be16 hi lo ≤ params.length)
  | _ => false

/-- Bytes that the cells of a page can give (R1). -/
def cellsFit : Option Page → Bool
  | none => true
  | some p => Machine.pageWf p

/-- A command or happening as the table's row admits it. -/
def Instr.wf : Instr → Bool
  | .configure params => countFits params
  | .join params => countFits params
  | .leave params => countFits params
  | .postRead params => countFits params
  | .postProgram params => countFits params
  | .postFinish params => countFits params
  | .postErase params => countFits params
  | .abort params => countFits params
  | .loadStaging params => countFits params
  | .fetchOutput params => countFits params
  | .releaseOutput params => countFits params
  | .takeCompletions params => countFits params
  | .readStatus params => countFits params
  | .readBudgetTable params => countFits params
  | .readRetired params => countFits params
  | .dieReset params => countFits params
  | .unknownCommand code params => !commandCodes.contains code && countFits params
  | .transactionCut clockedIn => !commandComplete clockedIn
  | .dieResetBegin _ => true
  | .dieResetEnd _ _ _ _ => true
  | .pulseEnd _ => true
  | .readSenseEnd _ cells => cellsFit cells
  | .blankCheckEnd _ => true
  | .mapScanSenseEnd _ cells => cellsFit cells
  | .coarseVerifyEnd _ _ => true
  | .fineVerifyEnd _ _ => true
  | .eraseVerifyEnd _ _ => true
  | .mapEraseVerifyEnd _ _ => true
  | .mapPageVerifyEnd _ _ => true
  | .waitLimitExpiry _ => true
  | .releaseHoldOffExpiry => true
  | .renewalDue => true
  | .selfLeaseLapse => true
  | .lastHeardAgeExpiry _ => true
  | .learningWindowEnd => true
  | .busStuckSet => true
  | .busStuckClear => true
  | .attemptStart => true
  | .frameEnd _ bits => !bits.isEmpty

end Sys2Proof
end

