-- ==== Sys2Proof/Decode.lean ====
section
/-! DEFINITION. Commands read from bits: the table's words, which spell none, and a host link transaction's bytes, with the
bytes that a command's command phase is clocked in as. -/

namespace Sys2Proof

/-- The command that a word of the table's bits spells. The table gives no row a bit, so no word spells one. -/
def decodeTableWord (_nbits _w : Nat) : Option Instr := none

/-- The command of a code with its parameter bytes; a code that is not one of the sixteen is an unknown command
(R171, R181). -/
def commandOf (code : Byte) (params : List Byte) : Instr :=
  if code = 0x11#8 then .configure params
  else if code = 0x12#8 then .join params
  else if code = 0x13#8 then .leave params
  else if code = 0x21#8 then .postRead params
  else if code = 0x22#8 then .postProgram params
  else if code = 0x23#8 then .postFinish params
  else if code = 0x24#8 then .postErase params
  else if code = 0x2F#8 then .abort params
  else if code = 0x31#8 then .loadStaging params
  else if code = 0x32#8 then .fetchOutput params
  else if code = 0x33#8 then .releaseOutput params
  else if code = 0x41#8 then .takeCompletions params
  else if code = 0x42#8 then .readStatus params
  else if code = 0x43#8 then .readBudgetTable params
  else if code = 0x44#8 then .readRetired params
  else if code = 0x5A#8 then .dieReset params
  else .unknownCommand code params

/-- The command of a transaction from every byte clocked in while HSEL_N was low: a code, a 2-byte count and as many
parameter bytes; bytes after the command phase are the response phase's and are ignored. A transaction cut short in its
command phase takes none (R170, R172). -/
def decodeTransaction : List Byte → Instr
  | code :: hi :: lo :: rest =>
    if Machine.be16 hi lo ≤ rest.length then commandOf code (rest.take (Machine.be16 hi lo))
    else .transactionCut (code :: hi :: lo :: rest)
  | short => .transactionCut short

/-- The bytes that the bits sampled on HDI make, most significant bit first; a byte that HSEL_N cuts short is discarded
(R169). -/
def hdiBytes : List Bool → List Byte
  | b7 :: b6 :: b5 :: b4 :: b3 :: b2 :: b1 :: b0 :: rest =>
    Machine.bitsByte [b0, b1, b2, b3, b4, b5, b6, b7] :: hdiBytes rest
  | _ => []

/-- The command of a transaction from every bit sampled on HDI while HSEL_N was low (R169, R170, R172). -/
def decodeHdi (bits : List Bool) : Instr := decodeTransaction (hdiBytes bits)

/-- The code and the parameter bytes of a command that the host sends; none for a happening (R181). -/
def Instr.command? : Instr → Option (Byte × List Byte)
  | .configure params => some (0x11#8, params)
  | .join params => some (0x12#8, params)
  | .leave params => some (0x13#8, params)
  | .postRead params => some (0x21#8, params)
  | .postProgram params => some (0x22#8, params)
  | .postFinish params => some (0x23#8, params)
  | .postErase params => some (0x24#8, params)
  | .abort params => some (0x2F#8, params)
  | .loadStaging params => some (0x31#8, params)
  | .fetchOutput params => some (0x32#8, params)
  | .releaseOutput params => some (0x33#8, params)
  | .takeCompletions params => some (0x41#8, params)
  | .readStatus params => some (0x42#8, params)
  | .readBudgetTable params => some (0x43#8, params)
  | .readRetired params => some (0x44#8, params)
  | .dieReset params => some (0x5A#8, params)
  | .unknownCommand code params => some (code, params)
  | .transactionCut _ => none
  | .dieResetBegin _ => none
  | .dieResetEnd _ _ _ _ => none
  | .pulseEnd _ => none
  | .readSenseEnd _ _ => none
  | .blankCheckEnd _ => none
  | .mapScanSenseEnd _ _ => none
  | .coarseVerifyEnd _ _ => none
  | .fineVerifyEnd _ _ => none
  | .eraseVerifyEnd _ _ => none
  | .mapEraseVerifyEnd _ _ => none
  | .mapPageVerifyEnd _ _ => none
  | .waitLimitExpiry _ => none
  | .releaseHoldOffExpiry => none
  | .renewalDue => none
  | .selfLeaseLapse => none
  | .lastHeardAgeExpiry _ => none
  | .learningWindowEnd => none
  | .busStuckSet => none
  | .busStuckClear => none
  | .attemptStart => none
  | .frameEnd _ _ => none

/-- The bytes of a command phase: the code, the count with its most significant byte first, the parameters (R170). -/
def commandPhase (code : Byte) (params : List Byte) : List Byte :=
  code :: Machine.bytes16 params.length ++ params

/-- The bytes that a command of the host is clocked in as; none for a happening (R170). -/
def Instr.encode (c : Instr) : Option (List Byte) :=
  c.command?.map fun x => commandPhase x.1 x.2

end Sys2Proof
end

