-- ==== Sys2Proof/Machine/Engine.lean ====
section
/-! DEFINITION. The bank engine: start points, the passes of a PROGRAM and FINISH, the ERASE, the READ, and what is
settled at each pulse boundary (chapters 1 to 5). Every function here works on one bank alone. -/

namespace Sys2Proof.Machine

/-! ### Start points (R24, R35, R55, R62, R70) -/

/-- The path of a READ of a word line: pending where the pending slot names it (R35). -/
def Bank.readPath (bk : Bank) (block wordLine : Nat) : ReadPath :=
  match bk.pendingSlot with
  | none => .sensing
  | some p => if p.block = block ∧ p.wordLine = wordLine then .pending else .sensing

/-- The path fixed at an operation's start point; only a READ has one (R35). -/
def Bank.pathOf (bk : Bank) (sl : Slot) : Option ReadPath :=
  match sl.op with
  | .read w _ => some (bk.readPath sl.block w)
  | .program _ => none
  | .finish => none
  | .erase _ => none

/-- Check 5 of R55. -/
def Bank.stagingCheck (bk : Bank) : Option OpOutcome :=
  if bk.staging.low.loaded && bk.staging.middle.loaded && bk.staging.high.loaded then none
  else some .stagingIncomplete

/-- The checks of a PROGRAM at its start point; the outcome of the first that fails (R55). -/
def Bank.programCheck (bk : Bank) (block wordLine : Nat) : Option OpOutcome :=
  if wordLine = 0 then
    match bk.openBlock with
    | none => bk.stagingCheck
    | some r => if r.block ≠ block then some .openBlockBusy else some .orderError
  else
    match bk.openBlock with
    | none => some .notOpen
    | some r =>
      if r.block ≠ block then some .notOpen
      else if r.next ≠ wordLine then some .orderError
      else bk.stagingCheck

/-- The check of a FINISH at its start point (R62). -/
def Bank.finishCheck (bk : Bank) (block : Nat) : Option OpOutcome :=
  if bk.opens block then none else some .notOpen

/-- Checks 1 and 2 of R24, then the checks of the kind. -/
def Bank.writeCheck (bk : Bank) (block : Nat) (kindCheck : Option OpOutcome) : Option OpOutcome :=
  if bk.isRetired block then some .retired
  else if bk.mapState = .lost then some .mapLost
  else kindCheck

/-- The start-time checks of an operation; the outcome of the first that fails (R24). -/
def Bank.startCheck (bk : Bank) (sl : Slot) : Option OpOutcome :=
  match sl.op with
  | .read _ _ => none
  | .program w => bk.writeCheck sl.block (bk.programCheck sl.block w)
  | .finish => bk.writeCheck sl.block (bk.finishCheck sl.block)
  | .erase _ => bk.writeCheck sl.block none

/-- An operation's start point: it ends with the outcome of a failed check, or becomes WAITING with its path fixed
(R24, R25, R35). -/
def Bank.startPoint (bk : Bank) (sl : Slot) : Turn :=
  match bk.startCheck sl with
  | some outcome => bk.endSlot sl outcome noFlags
  | none =>
    Turn.of { bk with
      queue := updateTag sl.tag (fun x => { x.enterWaiting with path := bk.pathOf x }) bk.queue }

/-! ### READs (chapter 3) -/

/-- The bytes the pending slot holds for a position (R36). -/
def Bank.pendingPage (bk : Bank) (p : Position) : Page :=
  match bk.pendingSlot with
  | none => []
  | some ps => ps.pages.get p

/-- A pending-path READ in WAITING is served as soon as the output buffer is free (R36). -/
def Bank.servePending (bk : Bank) (sl : Slot) : Option Turn :=
  match sl.op with
  | .read _ p =>
    if sl.state = .waiting ∧ sl.path = some .pending ∧ bk.outputFree then
      some (bk.completeRead sl (bk.pendingPage p) .ok fromPendingFlag)
    else none
  | .program _ => none
  | .finish => none
  | .erase _ => none

/-- A READ in OUTPUT_WAIT completes as soon as the output buffer is free (R42, R44). -/
def Bank.completeWaiting (bk : Bank) (sl : Slot) : Option Turn :=
  match bk.senseLatch with
  | none => none
  | some r =>
    if bk.outputFree then some (({ bk with senseLatch := none }).completeRead sl r.page r.outcome noFlags)
    else none

/-! ### What follows at once at the front of a bank -/

/-- One thing that happens at once at the front of a bank: the head reaches its start point, a READ takes the free
output buffer, or a SUSPENDED ERASE gives the nearest candidate its turn (R22, R24, R36, R44, R77, R78). -/
def Bank.advanceStep (bk : Bank) : Option Turn :=
  if bk.internal.isSome then none
  else
    match bk.queue with
    | [] => none
    | sl :: behind =>
      match sl.state with
      | .queued => some (bk.startPoint sl)
      | .waiting => bk.servePending sl
      | .outputWait => bk.completeWaiting sl
      | .suspended =>
        match overtaker behind with
        | some r => bk.servePending r
        | none =>
          if bk.outputFree then
            match candidate sl.block behind with
            | some r => some (bk.startPoint r)
            | none => none
          else none
      | .running => none
      | .held => none
      | .recording => none
      | .done => none

/-- All that follows at once at the front of a bank, in at most the given number of things. -/
def Bank.advance : Nat → Turn → Turn
  | 0, t => t
  | n + 1, t =>
    match t.bank.advanceStep with
    | none => t
    | some u => Bank.advance n ⟨u.bank, t.ended ++ u.ended⟩

/-- Each operation reaches its start point once and ends once, so this many things are enough. -/
def Bank.advanceFuel (bk : Bank) : Nat := 2 * bk.queue.length + 2

/-! ### Pulses -/

/-- A slot whose operation gives a pulse, the `n`th of its pass or erase (R18, R25). -/
def Slot.pulsed (sl : Slot) (n : Nat) : Slot :=
  { sl with state := .running, arrayTouched := true, pulses := n }

/-- The staging move and the first coarse pulse of a word line, in one change (R57). -/
def Bank.firstCoarsePulse (bk : Bank) (sl : Slot) (w : Nat) : Bank :=
  let pages := bk.staging.map StagingSlot.page
  { bk with
    latch := some pages
    staging := emptyStaging
    pass := some ⟨.coarse, w⟩
    passPulses := 1
    array := (bk.array.setMarks sl.block w { bk.array.marksOf sl.block w with coarseBegun := true }).writeWordLine
      sl.block w pages
    queue := updateTag sl.tag (fun x => x.pulsed 1) bk.queue
    step := some (.pulse .coarse) }

/-- The begun mark of a pass (R4). -/
def PassMarks.begin (m : PassMarks) : PassKind → PassMarks
  | .coarse => { m with coarseBegun := true }
  | .fine => { m with fineBegun := true }

/-- The done mark of a pass (R4). -/
def PassMarks.complete (m : PassMarks) : PassKind → PassMarks
  | .coarse => { m with coarseDone := true }
  | .fine => { m with fineDone := true }

/-- The pulses and verifies of a pass (R2). -/
def PassKind.use : PassKind → PulseUse
  | .coarse => .coarse
  | .fine => .fine

/-- The limit of a pass (R9, R10). -/
def PassKind.limit : PassKind → Nat
  | .coarse => coarseLimit
  | .fine => fineLimit

/-- The next pulse of a pass; the begun mark is written by its first (R4, R9, R10). -/
def Bank.passPulse (bk : Bank) (sl : Slot) (p : Pass) : Bank :=
  { bk with
    pass := some p
    passPulses := bk.passPulses + 1
    array :=
      if bk.passPulses = 0 then
        bk.array.setMarks sl.block p.wordLine ((bk.array.marksOf sl.block p.wordLine).begin p.kind)
      else bk.array
    queue := updateTag sl.tag (fun x => x.pulsed (bk.passPulses + 1)) bk.queue
    step := some (.pulse p.kind.use) }

/-- The next erase pulse of an ERASE. The first removes the erase-complete mark and, where the block is open, drops the
record and the pending slot (R8, R70, R71). -/
def Bank.erasePulse (bk : Bank) (sl : Slot) : Bank :=
  let first := sl.pulses = 0
  let drops := first ∧ bk.opens sl.block
  { bk with
    openBlock := if drops then none else bk.openBlock
    pendingSlot := if drops then none else bk.pendingSlot
    array := if first then bk.array.setEraseComplete sl.block false else bk.array
    queue := updateTag sl.tag (fun x => x.pulsed (sl.pulses + 1)) bk.queue
    step := some (.pulse .erase) }

/-- The next pulse of an operation that has begun: of the pass in progress, the move where a PROGRAM has none yet, or of
the erase (R57, R68, R79). A READ gives no pulse. -/
def Bank.nextPulse (bk : Bank) (sl : Slot) : Bank :=
  match sl.op with
  | .read _ _ => bk
  | .program w =>
    match bk.pass with
    | none => bk.firstCoarsePulse sl w
    | some p => bk.passPulse sl p
  | .finish =>
    match bk.pass with
    | none => bk
    | some p => bk.passPulse sl p
  | .erase _ => bk.erasePulse sl

/-- A sense begins for an operation (R37, R56). -/
def Bank.beginSense (bk : Bank) (sl : Slot) (use : SenseUse) : Bank :=
  { bk with
    queue := updateTag sl.tag (fun x => { x with state := .running }) bk.queue
    step := some (.sense use) }

/-- A WAITING operation that the gate lets begin: a READ's sense, the blank check of word line 0, the move and first
coarse pulse of another word line, a FINISH's first fine pulse, an ERASE's first erase pulse (R37, R56, R57, R62, R70). -/
def Bank.beginHost (bk : Bank) (sl : Slot) : Bank :=
  match sl.op with
  | .read _ _ => bk.beginSense sl .read
  | .program w => if w = 0 then bk.beginSense sl .blankCheck else bk.firstCoarsePulse sl w
  | .finish =>
    match bk.openBlock with
    | none => bk
    | some r => ({ bk with passPulses := 0 }).passPulse sl ⟨.fine, r.pendingWordLine⟩
  | .erase _ => bk.erasePulse sl

/-! ### Ends and boundaries -/

/-- What a stop drops: nothing before the first pulse; latch, record and pending slot after it (R66, R67). -/
def Bank.stopStores (bk : Bank) (sl : Slot) : Bank :=
  match sl.op with
  | .read _ _ => bk
  | .program _ => if sl.arrayTouched then bk.dropStores else bk
  | .finish => if sl.arrayTouched then bk.dropStores else bk
  | .erase _ => bk

/-- The step that ends has ended, and a pause order waits no longer. -/
def Bank.atRest (bk : Bank) : Bank :=
  { bk with step := none, pauseOrder := false }

/-- A boundary that neither ends the operation nor suspends it: a stop request is honoured first, then a pause order if
the gate still does not let the bank go on, and otherwise the next pulse begins (R32, R66, R67, R96). `gate` says
whether the begin gate lets the bank go on. -/
def Bank.boundary (bk : Bank) (sl : Slot) (gate : Bool) : Turn :=
  if sl.stopRequest then (bk.atRest.stopStores sl).endSlot sl .aborted noFlags
  else if bk.pauseOrder && !gate then
    Turn.of { bk.atRest with queue := updateTag sl.tag Slot.enterHeld bk.queue }
  else Turn.of (bk.atRest.nextPulse sl)

/-- Three pages of 0xFF. -/
def blankPages : Trio Page := ⟨[], [], []⟩

/-- The end of a PROGRAM of word line `w` below 63: the latch's pages become the pending slot's and the record is
created or advanced (R58, R59). -/
def Bank.programDone (bk : Bank) (sl : Slot) (w : Nat) : Turn :=
  let kept : Bank :=
    { bk.atRest with
      pendingSlot := some ⟨sl.block, w, bk.latch.getD blankPages⟩
      openBlock := some ⟨sl.block, w + 1⟩
      latch := none
      pass := none
      passPulses := 0 }
  kept.endSlot sl .ok noFlags

/-- The end of a PROGRAM of word line 63 or of a FINISH: latch and pending slot emptied, record dropped (R60, R62). -/
def Bank.blockClosed (bk : Bank) (sl : Slot) : Turn :=
  (bk.atRest.dropStores).endSlot sl .ok noFlags

/-- The RECORDING head ends with the outcome fixed at its failure (R26, R166). -/
def Bank.endRecording (bk : Bank) (f : RecordFlags) : Turn :=
  match bk.queue with
  | [] => Turn.of bk
  | sl :: behind =>
    if sl.state = .recording then ⟨{ bk with queue := behind }, [sl.finishRecording f]⟩ else Turn.of bk

/-- The cause of an entry for a failed operation (R157, R162). -/
def HostOp.cause : HostOp → Cause
  | .read _ _ => .programFail
  | .program _ => .programFail
  | .finish => .programFail
  | .erase _ => .eraseFail

/-- A failed block is handed to the block map unit, first case that applies (R162). -/
def Bank.handOff (bk : Bank) (sl : Slot) : Turn :=
  if retiredLimit ≤ bk.retired.length then bk.endRecording (listFullFlag (decide (bk.mapState = .degraded)))
  else
    let bk := { bk with retired := bk.retired ++ [RetiredEntry.mk sl.block sl.op.cause] }
    if bk.mapState = .degraded then bk.endRecording mapDegradedFlag
    else if bk.nextMapPage < mapPages then Turn.of { bk with internal := some ⟨.mapUpdate 0, false⟩ }
    else Turn.of { bk with internal := some ⟨.rewriteErase 0, false⟩ }

/-- What a failure discards: latch, record and pending slot of a PROGRAM or FINISH (R64, R65). An ERASE has dropped the
record at its first pulse (R71). -/
def Bank.failStores (bk : Bank) (sl : Slot) : Bank :=
  match sl.op with
  | .read _ _ => bk
  | .program _ => bk.dropStores
  | .finish => bk.dropStores
  | .erase _ => bk

/-- The head fails: it becomes RECORDING with what the failure fixes, and its block is handed off (R26, R64, R65,
R74). -/
def Bank.failHead (bk : Bank) (sl : Slot) (failure : Failure) : Turn :=
  let bk := bk.atRest.failStores sl
  ({ bk with
      queue := updateTag sl.tag (fun x => { x with state := .recording, stopRequest := false, failure := some failure })
        bk.queue }).handOff sl

/-- A pass fails at its limit (R64, R65). -/
def Bank.failPass (bk : Bank) (sl : Slot) (p : Pass) : Turn :=
  bk.failHead sl ⟨.programFail, some p.kind, some p.wordLine⟩

/-- The done mark of a passing verify (R4). -/
def Bank.passDone (bk : Bank) (sl : Slot) (p : Pass) : Bank :=
  { bk with
    array := bk.array.setMarks sl.block p.wordLine ((bk.array.marksOf sl.block p.wordLine).complete p.kind) }

/-- The next pass of a PROGRAM (R59, R60). -/
def Bank.nextPass (bk : Bank) (p : Pass) : Bank :=
  { bk with pass := some p, passPulses := 0 }

/-- The end of a coarse verify (R9, R58, R59, R60, R64). None: the bank holds no PROGRAM in its coarse pass. -/
def Bank.coarseVerify (bk : Bank) (passed gate : Bool) : Option Turn :=
  match bk.queue, bk.pass with
  | sl :: _, some p =>
    match sl.op, p.kind with
    | .program w, .coarse =>
      if passed then
        let bk := bk.passDone sl p
        if w = 0 then some (bk.programDone sl w)
        else some ((bk.nextPass ⟨.fine, w - 1⟩).boundary sl gate)
      else if coarseLimit ≤ bk.passPulses then some (bk.failPass sl p)
      else some (bk.boundary sl gate)
    | _, _ => none
  | _, _ => none

/-- The three pages a fine pass takes: from the latch for word line 63's own pass, otherwise from the pending slot
(R10, R59, R60, R62). -/
def Bank.finePages (bk : Bank) (sl : Slot) (w : Nat) : Trio Page :=
  let pending := (bk.pendingSlot.map PendingSlot.pages).getD blankPages
  match sl.op with
  | .program n => if w = n then bk.latch.getD blankPages else pending
  | .read _ _ => pending
  | .finish => pending
  | .erase _ => pending

/-- A fine pass succeeds: fine-done, and a sense of the word line returns the pages the pass took from then on
(R10). -/
def Bank.fineDone (bk : Bank) (sl : Slot) (p : Pass) : Bank :=
  let bk' := bk.passDone sl p
  { bk' with array := bk'.array.writeWordLine sl.block p.wordLine (bk.finePages sl p.wordLine) }

/-- The end of a fine verify (R10, R59, R60, R62, R64, R65). None: the bank holds no PROGRAM or FINISH in a fine pass. -/
def Bank.fineVerify (bk : Bank) (passed gate : Bool) : Option Turn :=
  match bk.queue, bk.pass with
  | sl :: _, some p =>
    match sl.op, p.kind with
    | .program w, .fine =>
      if passed then
        let bk := bk.fineDone sl p
        if w < 63 then some (bk.programDone sl w)
        else if p.wordLine < w then some ((bk.nextPass ⟨.fine, w⟩).boundary sl gate)
        else some (bk.blockClosed sl)
      else if fineLimit ≤ bk.passPulses then some (bk.failPass sl p)
      else some (bk.boundary sl gate)
    | .finish, .fine =>
      if passed then some ((bk.fineDone sl p).blockClosed sl)
      else if fineLimit ≤ bk.passPulses then some (bk.failPass sl p)
      else some (bk.boundary sl gate)
    | _, _ => none
  | _, _ => none

/-- The suspension test of a RUNNING ERASE (R75). -/
def Bank.suspensionTest (bk : Bank) (sl : Slot) (suspendable : Bool) (behind : List Slot) : Bool :=
  suspendable && decide (sl.suspensions < suspensionLimit) && bk.outputFree && (candidate sl.block behind).isSome

/-- The end of the erase verify of a host ERASE, first line that applies (R72). The candidate of a suspension is taken by
`Bank.advance` in the same change (R77). None: the bank holds no ERASE at its head. -/
def Bank.eraseVerify (bk : Bank) (passed gate : Bool) : Option Turn :=
  match bk.queue with
  | [] => none
  | sl :: behind =>
    match sl.op with
    | .erase suspendable =>
      if passed then
        some (({ bk.atRest with array := bk.array.setEraseComplete sl.block true }).endSlot sl .ok noFlags)
      else if eraseLimit ≤ sl.pulses then some (bk.failHead sl ⟨.eraseFail, none, none⟩)
      else if !sl.stopRequest && bk.suspensionTest sl suspendable behind then
        some (Turn.of { bk.atRest with
          queue := updateTag sl.tag
            (fun x => { x with state := .suspended, suspensions := x.suspensions + 1 }) bk.queue })
      else some (bk.boundary sl gate)
    | .read _ _ => none
    | .program _ => none
    | .finish => none

/-- The READ whose sense is under way: the head, or the READ overtaking a SUSPENDED ERASE. -/
def Bank.runningRead (bk : Bank) : Option Slot :=
  bk.queue.find? fun sl => sl.isRead && sl.state == .running

/-- The end of a READ's sense: it completes into a free buffer, ends ABORTED on a stop request, or enters OUTPUT_WAIT
(R32, R38, R41, R42). None: no READ runs. -/
def Bank.readSensed (bk : Bank) (cells : Option Page) : Option Turn :=
  match bk.runningRead with
  | none => none
  | some sl =>
    match sl.op with
    | .read w p =>
      let r := bk.array.sense sl.block w p cells (.read sl.tag)
      let bk := bk.atRest
      if bk.outputFree then some (({ bk with senseLatch := none }).completeRead sl r.page r.outcome noFlags)
      else if sl.stopRequest then some (({ bk with senseLatch := none }).endSlot sl .aborted noFlags)
      else
        some (Turn.of { bk with
          senseLatch := some r
          queue := updateTag sl.tag (fun x => { x with state := .outputWait }) bk.queue })
    | .program _ => none
    | .finish => none
    | .erase _ => none

/-- The end of a blank check: the block is ERASED and the PROGRAM goes on at this boundary, or it ends NOT_ERASED
(R56). None: the bank holds no PROGRAM at its head. -/
def Bank.blankChecked (bk : Bank) (gate : Bool) : Option Turn :=
  match bk.queue with
  | [] => none
  | sl :: _ =>
    match sl.op with
    | .program _ =>
      let blank := bk.array.eraseComplete sl.block && decide (bk.array.marksOf sl.block 0 = noMarks)
      let bk := { bk with senseLatch := none }
      if blank then some (bk.boundary sl gate) else some (bk.atRest.endSlot sl .notErased noFlags)
    | .read _ _ => none
    | .finish => none
    | .erase _ => none

/-! ### Stops from outside a boundary (R31, R33, R98) -/

/-- The queue once its SUSPENDED ERASE has left: the overtaking READ, if there is one, becomes the head operation (R33,
R80, log entry 10). -/
def promoteOvertaker (behind : List Slot) : List Slot :=
  match overtaker behind with
  | none => behind
  | some r => r :: removeTag r.tag behind

/-- An ABORT or the wait limit ends an operation that has no step under way, with the effects of its state (R31, R33,
R66, R67, R80). -/
def Bank.stopSlot (bk : Bank) (sl : Slot) (outcome : OpOutcome) : Turn :=
  match sl.state with
  | .queued => bk.endSlot sl outcome noFlags
  | .waiting => bk.endSlot sl outcome noFlags
  | .held => (bk.stopStores sl).endSlot sl outcome noFlags
  | .suspended =>
    let t := bk.endSlot sl outcome noFlags
    ⟨{ t.bank with queue := promoteOvertaker t.bank.queue }, t.ended⟩
  | .outputWait => ({ bk with senseLatch := none }).endSlot sl outcome noFlags
  | .running => Turn.of bk
  | .recording => Turn.of bk
  | .done => Turn.of bk

end Sys2Proof.Machine
end

