-- ==== Sys2Proof/Machine/MapUnit.lean ====
section
/-! DEFINITION. The block map unit and the internal operations it asks for: MAP_LOAD, MAP_UPDATE and MAP_REWRITE
(chapter 10), and the end of a pulse, which the map's pulses share with the host operations'. -/

namespace Sys2Proof.Machine

/-- The map block that a MAP_REWRITE moves the list into (R164). -/
def Bank.otherMapBlock (bk : Bank) : MapBlock :=
  match bk.mapBlock with
  | some .a => .b
  | some .b => .a
  | none => .a

/-- The map block that a MAP_UPDATE writes into (R163). -/
def Bank.currentMapBlock (bk : Bank) : MapBlock := bk.mapBlock.getD .a

/-- The first pulse of a map-page write (R12). -/
def Bank.firstMapPulse (bk : Bank) (block : MapBlock) (w : Nat) (op : InternalOp) : Bank :=
  let n := mapBlockNumber block
  { bk with
    array := bk.array.setMarks n w { bk.array.marksOf n w with coarseBegun := true }
    internal := some ⟨op, true⟩
    step := some (.pulse .mapPage) }

/-- An internal operation begins: a MAP_LOAD's first sense, a MAP_UPDATE's first pulse, or the first erase pulse of a
MAP_REWRITE, which removes the erase-complete mark (R8, R160, R163, R164). -/
def Bank.beginInternal (bk : Bank) (op : InternalOp) : Bank :=
  match op with
  | .mapLoad scan => { bk with internal := some ⟨.mapLoad scan, true⟩, step := some (.sense .mapScan) }
  | .mapUpdate _ => bk.firstMapPulse bk.currentMapBlock bk.nextMapPage (.mapUpdate 1)
  | .rewriteErase _ =>
    { bk with
      array := bk.array.setEraseComplete (mapBlockNumber bk.otherMapBlock) false
      internal := some ⟨.rewriteErase 1, true⟩
      step := some (.pulse .mapErase) }
  | .rewritePage w _ => bk.firstMapPulse bk.otherMapBlock w (.rewritePage w 1)

/-- What the gate lets go on at the front of a bank: an internal operation begins, the head begins or resumes, or a READ
overtaking a SUSPENDED ERASE begins (R88, R97). A SUSPENDED ERASE with no READ to take resumes (R79). -/
def Bank.proceed (bk : Bank) : Bank :=
  match bk.internal with
  | some i => bk.beginInternal i.op
  | none =>
    match bk.queue with
    | [] => bk
    | sl :: behind =>
      match sl.state with
      | .waiting => bk.beginHost sl
      | .held => bk.nextPulse sl
      | .suspended =>
        match overtaker behind with
        | some r => bk.beginSense r .read
        | none => bk.nextPulse sl
      | .queued => bk
      | .running => bk
      | .outputWait => bk
      | .recording => bk
      | .done => bk

/-! ### The end of a pulse (R2, R8) -/

/-- The block whose first erase pulse is under way, if one is. -/
def Bank.firstErasePulseOf (bk : Bank) (use : PulseUse) : Option Nat :=
  match use with
  | .erase =>
    match bk.queue with
    | [] => none
    | sl :: _ => if sl.pulses = 1 then some sl.block else none
  | .mapErase =>
    match bk.internal with
    | some ⟨.rewriteErase 1, _⟩ => some (mapBlockNumber bk.otherMapBlock)
    | _ => none
  | .coarse => none
  | .fine => none
  | .mapPage => none

/-- A pulse ends and its verify begins. At the end of a first erase pulse every word line of the block is ERASED (R8). -/
def Bank.pulseEnded (bk : Bank) (use : PulseUse) : Bank :=
  { bk with
    step := some (.verify use)
    array :=
      match bk.firstErasePulseOf use with
      | some block => bk.array.clearBlock block
      | none => bk.array }

/-! ### MAP_LOAD (R160, R161) -/

/-- The better of the best valid page so far and a new one: the higher number, and of equal numbers the one in block A,
and within one block the one on the higher word line. Pages come in scan order (R160, R161). -/
def betterPage (best : Option ScanBest) (new : ScanBest) : ScanBest :=
  match best with
  | none => new
  | some old =>
    if old.seq.toNat < new.seq.toNat then new
    else if old.seq = new.seq ∧ old.block = new.block then new
    else old

/-- Judge the page just sensed (R159, R160). -/
def Scan.judge (scan : Scan) (r : SenseResult) : Scan :=
  if r.outcome = .ok then
    match readMapPage r.page with
    | none => scan
    | some (seq, entries) => { scan with best := some (betterPage scan.best ⟨seq, entries, scan.block, scan.wordLine⟩) }
  else scan

/-- Note the first erased page of the block being scanned (R160). -/
def Scan.noteErased (scan : Scan) : Scan :=
  match scan.block with
  | .a => { scan with firstErasedA := some scan.wordLine }
  | .b => { scan with firstErasedB := some scan.wordLine }

/-- Whether the scan of the present block ends with this sense (R160). -/
def Scan.blockEnds (scan : Scan) (r : SenseResult) : Bool :=
  !r.eraseComplete || decide (r.outcome = .erasedPage) || decide (63 ≤ scan.wordLine)

/-- The scan after one sense: judged, and at the next page, or none further. -/
def Scan.next (scan : Scan) (r : SenseResult) : Scan × Bool :=
  let noted := if r.eraseComplete ∧ r.outcome = .erasedPage then scan.noteErased else scan.judge r
  if scan.blockEnds r then
    match scan.block with
    | .a => ({ noted with block := .b, wordLine := 0 }, true)
    | .b => (noted, false)
  else ({ noted with wordLine := scan.wordLine + 1 }, true)

/-- The first erased page of the block that decides (R161). -/
def Scan.nextMapPage (scan : Scan) (block : MapBlock) : Nat :=
  match block with
  | .a => scan.firstErasedA.getD mapPages
  | .b => scan.firstErasedB.getD mapPages

/-- MAP_LOAD ends and the bank's map is settled (R161). -/
def Bank.settleMap (bk : Bank) (scan : Scan) : Bank :=
  match scan.best with
  | some best =>
    { bk with
      internal := none
      retired := best.entries
      mapSeq := best.seq
      mapBlock := some best.block
      nextMapPage := scan.nextMapPage best.block
      mapFailureRun := 0
      mapState := .loaded }
  | none =>
    { bk with
      internal := none
      retired := []
      mapSeq := 0#32
      mapBlock := none
      nextMapPage := 0
      mapState := .lost }

/-- The end of a scan sense (R160). None: the bank runs no MAP_LOAD. -/
def Bank.mapSensed (bk : Bank) (cells : Option Page) : Option Turn :=
  match bk.internal with
  | some ⟨.mapLoad scan, _⟩ =>
    let r := bk.array.sense (mapBlockNumber scan.block) scan.wordLine .low cells .mapScan
    let bk := { bk with step := none, senseLatch := none }
    match scan.next r with
    | (after, true) =>
      some (Turn.of { bk with internal := some ⟨.mapLoad after, true⟩, step := some (.sense .mapScan) })
    | (after, false) => some (Turn.of (bk.settleMap after))
  | _ => none

/-! ### Map writes (R163, R164, R165) -/

/-- One more than a sequence number; what follows the last is not stated (R159, log entry 16). -/
def nextSeq (n : BitVec 32) : BitVec 32 :=
  if n = 0xFFFFFFFF#32 then Config.sequenceAfterLast else n + 1#32

/-- The bank becomes DEGRADED: the internal operation ends, and the RECORDING slot with it (R165, R166). -/
def Bank.degrade (bk : Bank) : Turn :=
  ({ bk with internal := none, mapState := .degraded }).endRecording mapDegradedFlag

/-- A map-page write has passed at a word line: the page is FINE and holds the list, it is the bank's newest, and the
RECORDING slot ends with MAP_WRITTEN (R12, R163, R164, R166). -/
def Bank.mapWritten (bk : Bank) (block : MapBlock) (w : Nat) : Turn :=
  let seq := nextSeq bk.mapSeq
  ({ bk with
      array := (bk.array.setMarks (mapBlockNumber block) w allMarks).writePage (mapBlockNumber block) w .low
        (mapPage seq bk.retired)
      internal := none
      mapSeq := seq
      mapBlock := some block
      nextMapPage := w + 1
      mapFailureRun := 0 }).endRecording mapWrittenFlag

/-- A map-page write of a MAP_UPDATE fails at its limit (R163). -/
def Bank.updateFailed (bk : Bank) : Turn :=
  let bk := { bk with nextMapPage := bk.nextMapPage + 1, mapFailureRun := bk.mapFailureRun + 1 }
  if mapFailureLimit ≤ bk.mapFailureRun then bk.degrade
  else if bk.nextMapPage < mapPages then
    Turn.of (bk.firstMapPulse bk.currentMapBlock bk.nextMapPage (.mapUpdate 1))
  else Turn.of { bk with internal := some ⟨.rewriteErase 0, false⟩ }

/-- A map-page write of a MAP_REWRITE fails at its limit (R164). -/
def Bank.rewriteFailed (bk : Bank) (w : Nat) : Turn :=
  let bk := { bk with mapFailureRun := bk.mapFailureRun + 1 }
  if mapFailureLimit ≤ bk.mapFailureRun then bk.degrade
  else Turn.of (bk.firstMapPulse bk.otherMapBlock (w + 1) (.rewritePage (w + 1) 1))

/-- A further pulse of an internal operation. -/
def Bank.nextMapPulse (bk : Bank) (op : InternalOp) (use : PulseUse) : Turn :=
  Turn.of { bk with internal := some ⟨op, true⟩, step := some (.pulse use) }

/-- The end of a map-page verify (R163, R164). None: the bank writes no map page. -/
def Bank.mapPageVerify (bk : Bank) (passed : Bool) : Option Turn :=
  let bk := { bk with step := none }
  match bk.internal with
  | some ⟨.mapUpdate pulses, _⟩ =>
    if passed then some (bk.mapWritten bk.currentMapBlock bk.nextMapPage)
    else if mapPageLimit ≤ pulses then some bk.updateFailed
    else some (bk.nextMapPulse (.mapUpdate (pulses + 1)) .mapPage)
  | some ⟨.rewritePage w pulses, _⟩ =>
    if passed then some (bk.mapWritten bk.otherMapBlock w)
    else if mapPageLimit ≤ pulses then some (bk.rewriteFailed w)
    else some (bk.nextMapPulse (.rewritePage w (pulses + 1)) .mapPage)
  | _ => none

/-- The end of the erase verify of a MAP_REWRITE (R164). None: the bank erases no map block. -/
def Bank.mapEraseVerify (bk : Bank) (passed : Bool) : Option Turn :=
  let bk := { bk with step := none }
  match bk.internal with
  | some ⟨.rewriteErase pulses, _⟩ =>
    if passed then
      some (Turn.of (({ bk with
          array := bk.array.setEraseComplete (mapBlockNumber bk.otherMapBlock) true }).firstMapPulse
        bk.otherMapBlock 0 (.rewritePage 0 1)))
    else if eraseLimit ≤ pulses then some bk.degrade
    else some (bk.nextMapPulse (.rewriteErase (pulses + 1)) .mapErase)
  | _ => none

end Sys2Proof.Machine
end

