-- ==== Sys2Proof/Machine/Table.lean ====
section
/-! DEFINITION. The budget table: precedence, the fit rule, and the effect of each applied frame (chapter 7). -/

namespace Sys2Proof.Machine

/-- The entry holds or is waiting (R101). -/
def Entry.active (e : Entry) : Bool := decide (0 < e.held) || e.waiting.isSome

/-- An entry's wait level; 0 where it is not waiting (R101). -/
def Entry.level (e : Entry) : Nat :=
  match e.waiting with
  | none => 0
  | some w => w.level

/-- An entry's requested total; 0 where it is not waiting (R101). -/
def Entry.requested (e : Entry) : Nat :=
  match e.waiting with
  | none => 0
  | some w => w.requested

/-- The sum of held over some entries. -/
def heldSum (t : PerStation Entry) (ids : List StationId) : Nat :=
  (ids.map fun k => (t.entry k).held).sum

/-- The table total (R101). -/
def tableTotal (t : PerStation Entry) : Nat := heldSum t stationIds

/-- Every id but one. -/
def idsBut (s : StationId) : List StationId := stationIds.filter fun k => k != s

/-- The waiting entry of the highest level among ids in rising order, the lowest id among equals (R113). -/
def precedentAmong (t : PerStation Entry) : List StationId → Option StationId
  | [] => none
  | k :: ks =>
    match (t.entry k).waiting, precedentAmong t ks with
    | none, rest => rest
    | some _, none => some k
    | some w, some r => if w.level < (t.entry r).level then some r else some k

/-- The precedent waiter of a copy (R113). -/
def precedentWaiter (t : PerStation Entry) : Option StationId := precedentAmong t stationIds

/-- The precedent waiter other than a claimant (R113). -/
def precedentOther (t : PerStation Entry) (s : StationId) : Option StationId := precedentAmong t (idsBut s)

/-- Some entry other than the station's own is waiting (R92, R113). -/
def otherWaiting (t : PerStation Entry) (s : StationId) : Bool :=
  (idsBut s).any fun k => (t.entry k).waiting.isSome

/-- The free units that a claim of station `s` is judged against; may be below 0 (R114). -/
def freeUnits (budget : Nat) (t : PerStation Entry) (s : StationId) : Int :=
  (budget : Int) - (heldSum t (idsBut s) : Int)

/-- A precedent waiter's shortfall; may be 0 or less (R114). -/
def shortfall (e : Entry) : Int := (e.requested : Int) - (e.held : Int)

/-- The second half of condition 2 of the fit rule: no better-ranked waiter, or room for both (R114). -/
def ranksOrLeavesRoom (budget : Nat) (t : PerStation Entry) (s : StationId) (q w : Nat) : Bool :=
  match precedentOther t s with
  | none => true
  | some p =>
    let e := t.entry p
    decide (e.level < w) || (decide (w = e.level) && decide (s.toNat < p.toNat)) ||
      decide ((q : Int) + shortfall e ≤ freeUnits budget t s)

/-- The claim of station `s` for a total `q` at wait level `w` fits a copy (R114). -/
def fits (budget : Nat) (t : PerStation Entry) (s : StationId) (q w : Nat) : Bool :=
  decide (q ≤ (t.entry s).held) ||
    (decide ((q : Int) ≤ freeUnits budget t s) && ranksOrLeavesRoom budget t s q w)

/-- The sender of an applied frame is known and its last-heard age restarts (R105). -/
def Entry.heard (e : Entry) : Entry := { e with known := true, age := 0 }

/-- The generation advances by 1 modulo 16 (R112). -/
def Entry.advanced (e : Entry) : Entry := { e with generation := e.generation + 1#4 }

/-- A refused claim's wait level: one above the level the frame carried, 15 at most (R107). -/
def raisedLevel (w : Nat) : Nat := min 15 (w + 1)

/-- Whether an EVICT carrying a generation is effective on an entry (R110). -/
def evictEffective (e : Entry) (generation : BitVec 4) : Bool :=
  decide (e.generation = generation) && e.active

/-- The sender's own entry after its applied frame, for the kinds that change it (R106 to R109, R111, R112). -/
def Entry.applied (e : Entry) (p : Payload) (objected : Bool) : Entry :=
  match p with
  | .hello nonce => { e.heard.advanced with held := 0, waiting := none, nonce := some nonce }
  | .claim q level =>
    if objected then { e.heard.advanced with waiting := some ⟨q.toNat, raisedLevel level.toNat⟩ }
    else { e.heard.advanced with held := q.toNat, waiting := none }
  | .release total =>
    { e.heard.advanced with
      held := total.toNat
      waiting := e.waiting.filter fun w => decide (total.toNat < w.requested) }
  | .renew held requested level =>
    { e.heard.advanced with
      held := held.toNat
      waiting := if requested = 0#8 then none else some ⟨requested.toNat, level.toNat⟩ }
  | .evict _ _ => e.heard
  | .withdraw => { e.heard.advanced with waiting := none }

/-- The target of an applied EVICT: its age restarts, and an effective one takes its units and its wait (R105, R110). -/
def Entry.evicted (e : Entry) (generation : BitVec 4) : Entry :=
  if evictEffective e generation then { e.advanced with held := 0, waiting := none, age := 0 }
  else { e with age := 0 }

/-- A copy after an applied frame of a station (R104 to R112). -/
def applyFrame (t : PerStation Entry) (sender : StationId) (p : Payload) (objected : Bool) : PerStation Entry :=
  let t' := t.put sender ((t.entry sender).applied p objected)
  match p with
  | .evict target generation => t'.put target ((t'.entry target).evicted generation)
  | .hello _ => t'
  | .claim _ _ => t'
  | .release _ => t'
  | .renew _ _ _ => t'
  | .withdraw => t'

/-- An applied RENEW states another held value than a known entry of another station showed (R109). -/
def renewDiffers (t : PerStation Entry) (own sender : StationId) (p : Payload) : Bool :=
  match p with
  | .renew held _ _ => decide (sender ≠ own) && (t.entry sender).known && decide ((t.entry sender).held ≠ held.toNat)
  | .hello _ => false
  | .claim _ _ => false
  | .release _ => false
  | .evict _ _ => false
  | .withdraw => false

/-- A pending EVICT of a target is stale against its entry (R118). -/
def evictStale (e : Entry) (generation : BitVec 4) : Bool :=
  decide (e.generation ≠ generation) || !e.active

/-- An EVICT of the entry's station is due: it has not been heard for more than L while it holds or waits (R117). -/
def evictDue (leaseTicks : Nat) (e : Entry) : Bool :=
  decide (leaseTicks < e.age) && e.active

/-- The pending EVICT of one target after a frame has been applied: a stale one is removed and a due one queued (R117,
R118). -/
def evictAfter (leaseTicks : Nat) (e : Entry) (pending : Option (BitVec 4)) : Option (BitVec 4) :=
  match pending.filter fun g => !evictStale e g with
  | some g => some g
  | none => if evictDue leaseTicks e then some e.generation else none

/-- Every pending EVICT examined against a copy; the own entry has none (R117, R118). -/
def examineEvicts (leaseTicks : Nat) (own : StationId) (t : PerStation Entry)
    (pending : PerStation (Option (BitVec 4))) : PerStation (Option (BitVec 4)) :=
  Vector.ofFn fun k =>
    let id : StationId := BitVec.ofFin k
    if id = own then none else evictAfter leaseTicks (t.entry id) (pending.entry id)

end Sys2Proof.Machine
end

