-- ==== Sys2Proof/Machine/Budget.lean ====
section
/-! DEFINITION. Reservations, the begin gate, claims, giving back, pause orders, and the one operation that settles a
change: everything that follows in the same change once a command or a happening has had its own effect (chapter 6). -/

namespace Sys2Proof.Machine

/-! ### Reservations (R85, R86, R87) -/

/-- An operation's reservation, with a READ's path (R85). -/
def Slot.reservation (sl : Slot) : Nat :=
  match sl.op with
  | .read _ _ => if sl.path = some .pending then 0 else 2
  | .program _ => 5
  | .finish => 4
  | .erase _ => 6

/-- An internal operation's reservation (R85). -/
def InternalOp.reservation : InternalOp → Nat
  | .mapLoad _ => 2
  | .mapUpdate _ => 3
  | .rewriteErase _ => 6
  | .rewritePage _ _ => 6

/-- The bank reservation, first line that applies (R86). -/
def Bank.reservation (bk : Bank) : Nat :=
  match bk.internal with
  | some i => i.op.reservation
  | none =>
    match bk.queue with
    | [] => 0
    | sl :: behind =>
      match sl.state with
      | .queued => 0
      | .waiting => sl.reservation
      | .running => sl.reservation
      | .held => sl.reservation
      | .suspended =>
        match overtaker behind with
        | some r => r.reservation
        | none => sl.reservation
      | .outputWait => 0
      | .recording => 0
      | .done => 0

/-- The operation that the bank reservation counts has begun its powered phases and has not paused (R87). -/
def Bank.isRunning (bk : Bank) : Bool :=
  match bk.internal with
  | some i => i.begun
  | none =>
    match bk.queue with
    | [] => false
    | sl :: behind =>
      match sl.state with
      | .running => true
      | .suspended =>
        match overtaker behind with
        | some r => r.state == .running
        | none => false
      | .queued => false
      | .waiting => false
      | .held => false
      | .outputWait => false
      | .recording => false
      | .done => false

/-- The running reservation of a bank (R87). -/
def Bank.runningReservation (bk : Bank) : Nat :=
  if bk.isRunning then bk.reservation else 0

/-- A waiting bank: a reservation that is not 0, none of it running (R87). -/
def Bank.isWaiting (bk : Bank) : Bool :=
  decide (bk.reservation ≠ 0) && !bk.isRunning

/-- The station need N (R87). -/
def State.need (s : State) : Nat :=
  s.bank0.reservation + s.bank1.reservation

/-- The station's own entry (R101). -/
def Controller.own (c : Controller) : Entry := c.table.entry c.id

/-- The own entry replaced. -/
def Controller.setOwn (c : Controller) (e : Entry) : Controller :=
  { c with table := c.table.put c.id e }

/-- The own holding H (R87). -/
def State.holding (s : State) : Nat := s.ctl.own.held

/-- The budget size B, or 0 before CONFIGURE (R122). -/
def Controller.budget (c : Controller) : Nat :=
  match c.settings with
  | none => 0
  | some g => g.budget

/-- The lease L in the model's unit of time, or 0 before CONFIGURE. -/
def Controller.leaseTicks (c : Controller) : Nat :=
  match c.settings with
  | none => 0
  | some g => g.lease * ticksPerMs

/-- The wait limit W in the model's unit of time; 0: no limit (R98). -/
def Controller.waitTicks (c : Controller) : Nat :=
  match c.settings with
  | none => 0
  | some g => g.waitLimit * ticksPerMs

/-! ### The begin gate (R88, R89) -/

/-- The state condition of the begin gate: IN_SERVICE and not LAPSED, or SOLO (R88). -/
def Controller.mayDraw (c : Controller) : Bool :=
  (decide (c.station = .inService) && !c.lapsed) || decide (c.station = .solo)

/-- What the gate may admit up to: H, and no more than the total of a RELEASE in its attempt (R88). -/
def State.admissible (s : State) : Nat :=
  match s.port.sending with
  | some ⟨.release total, _⟩ => min s.holding total.toNat
  | _ => s.holding

/-- The begin gate admits a bank (R88). -/
def State.gateAdmits (s : State) (b : BankId) : Bool :=
  s.ctl.mayDraw &&
    decide ((s.bank (otherBank b)).runningReservation + (s.bank b).reservation ≤ s.admissible)

/-- A waiting bank is judged at the gate, and begins or resumes where it is admitted (R88, R97). -/
def State.tryBank (s : State) (b : BankId) : State :=
  if (s.bank b).isWaiting && s.gateAdmits b then s.setBank b (s.bank b).proceed else s

/-- The gate is consulted for each waiting bank in bank order (R89). -/
def State.tryBanks (s : State) : State := (s.tryBank .zero).tryBank .one

/-! ### Claims (R90, R100) -/

/-- A total with a waiting bank's reservation added, where it stays within B (R90). -/
def addWaiting (budget total : Nat) (bk : Bank) : Nat :=
  if bk.isWaiting ∧ total + bk.reservation ≤ budget then total + bk.reservation else total

/-- The claim total (R90). -/
def State.claimTotal (s : State) : Nat :=
  addWaiting s.ctl.budget
    (addWaiting s.ctl.budget (s.bank0.runningReservation + s.bank1.runningReservation) s.bank0) s.bank1

/-- A claim is needed: a waiting bank, and a claim total above H (R90). -/
def State.claimNeeded (s : State) : Bool :=
  (s.bank0.isWaiting || s.bank1.isWaiting) && decide (s.holding < s.claimTotal)

/-- In SOLO a needed claim is judged and granted at once; the own entry's generation advances (R100, R103). -/
def State.soloClaim (s : State) : State :=
  if s.ctl.station = .solo ∧ s.claimNeeded ∧ s.claimTotal ≤ s.ctl.budget then
    { s with ctl := s.ctl.setOwn { s.ctl.own.advanced with held := s.claimTotal, waiting := none } }
  else s

/-! ### What waits, and pause orders (R25, R79, R96) -/

/-- A slot that is held in WAITING by the closed gate has waited for budget (R25). -/
def Slot.noteWaiting (sl : Slot) : Slot :=
  if sl.state = .waiting ∧ sl.reservation ≠ 0 then { sl with budgetWaited := true } else sl

/-- The operations of a bank that the gate has left waiting set BUDGET_WAITED, and a SUSPENDED ERASE that could not
resume becomes HELD (R25, R79). -/
def Bank.noteWaiting (bk : Bank) : Bank :=
  if bk.internal.isSome then bk
  else
    match bk.queue with
    | [] => bk
    | sl :: behind =>
      if sl.state = .suspended ∧ overtaker behind = none then { bk with queue := sl.enterHeld :: behind }
      else { bk with queue := (sl :: behind).map Slot.noteWaiting }

/-- A host operation of the bank is RUNNING (R96). -/
def Bank.hostRunning (bk : Bank) : Bool :=
  bk.internal.isNone && bk.isRunning

/-- A pause order reaches a bank whose host operation is RUNNING when the gate no longer admits it (R96). -/
def State.orderPause (s : State) (b : BankId) : State :=
  if (s.bank b).hostRunning && !s.gateAdmits b then s.setBank b { s.bank b with pauseOrder := true } else s

/-! ### The transmit set's upkeep (R90, R92, R99, R154) -/

/-- RELEASE is queued, and removes a pending RENEW (R137). -/
def TransmitSet.queueRelease (x : TransmitSet) : TransmitSet :=
  { x with release := true, renew := false }

/-- The release hold-off and RELEASE while H is above N: RELEASE at once where another entry waits, else the hold-off
runs (R92). In SOLO no entry other than the own one waits (R100). Where H still exceeds N once a RELEASE has been applied, since N
fell during its attempt, the station looks at its table afresh: RELEASE at once, or the hold-off from 0 (log entry 33). -/
def State.tendExcess (s : State) : State :=
  if s.need < s.holding then
    if s.ctl.transmit.release then { s with ctl := { s.ctl with holdOff := none } }
    else if otherWaiting s.ctl.table s.ctl.id then
      { s with ctl := { s.ctl with transmit := s.ctl.transmit.queueRelease, holdOff := none } }
    else { s with ctl := { s.ctl with holdOff := some (s.ctl.holdOff.getD 0) } }
  else { s with ctl := { s.ctl with holdOff := none } }

/-- CLAIM stands in the set exactly while it is needed, and WITHDRAW is queued where the own entry waits and no claim is
needed (R90, R99). -/
def State.tendClaims (s : State) : State :=
  { s with ctl := { s.ctl with transmit := { s.ctl.transmit with
      claim := s.claimNeeded
      withdraw := s.ctl.transmit.withdraw || (s.ctl.own.waiting.isSome && !s.claimNeeded) } } }

/-- LEAVING keeps a RELEASE pending while the own entry holds and a WITHDRAW while it waits (R154). -/
def Controller.tendLeaving (c : Controller) : Controller :=
  let x := { c.transmit with claim := false, withdraw := c.transmit.withdraw || c.own.waiting.isSome }
  { c with
    holdOff := none
    transmit := if 0 < c.own.held then x.queueRelease else x }

/-- The transmit set's upkeep in each station state. -/
def State.tendTransmit (s : State) : State :=
  match s.ctl.station with
  | .inService => s.tendExcess.tendClaims
  | .solo => s.tendExcess
  | .leaving => { s with ctl := s.ctl.tendLeaving }
  | .unconfigured => { s with ctl := { s.ctl with holdOff := none } }
  | .configured => { s with ctl := { s.ctl with holdOff := none } }
  | .learning => { s with ctl := { s.ctl with holdOff := none } }
  | .idConflict => { s with ctl := { s.ctl with holdOff := none } }
  | .configMismatch => { s with ctl := { s.ctl with holdOff := none } }
  | .rxFault => { s with ctl := { s.ctl with holdOff := none } }
  | .txFault => { s with ctl := { s.ctl with holdOff := none } }

/-! ### Settling a change -/

/-- All that follows at once at the front of one bank. -/
def State.advanceBank (s : State) (b : BankId) : State :=
  s.withTurn b (Bank.advance (s.bank b).advanceFuel (Turn.of (s.bank b)))

/-- The start points and completions at the front of both banks. -/
def State.advanceBanks (s : State) : State := (s.advanceBank .zero).advanceBank .one

/-- The gate, a SOLO claim, and the gate again (R88, R89, R100, R145). -/
def State.admitAll (s : State) : State := s.tryBanks.soloClaim.tryBanks

/-- Both banks note what waits. -/
def State.noteWaiting (s : State) : State :=
  { s with bank0 := s.bank0.noteWaiting, bank1 := s.bank1.noteWaiting }

/-- Pause orders reach both banks where due. -/
def State.orderPauses (s : State) : State := (s.orderPause .zero).orderPause .one

/-- What follows in the same change once a command or happening has had its own effect: start points, the gate, claims,
BUDGET_WAITED, pause orders and the transmit set (R22, R24, R88 to R92, R96, R99, R100, R120). -/
def State.settle (s : State) : State :=
  s.advanceBanks.admitAll.noteWaiting.orderPauses.tendTransmit

end Sys2Proof.Machine
end

