-- ==== Sys2Proof/Machine/ArraySteps.lean ====
section
/-! DEFINITION. The ends of array steps: pulses, senses and verifies (chapters 1, 3, 4, 5 and 10). -/

namespace Sys2Proof.Machine

/-- A bank's map news is raised where its map state has become LOST or DEGRADED (R158, R176). -/
def State.noteMap (s : State) (b : BankId) (before : MapState) : State :=
  let now := (s.bank b).mapState
  if now.isNews ∧ now ≠ before then { s with link := s.link.raiseMapNews b } else s

/-- A bank's change at the end of a step takes effect, and what follows from it is settled in the same change. -/
def State.conclude (s : State) (b : BankId) (t : Turn) : State :=
  ((s.withTurn b t).noteMap b (s.bank b).mapState).settle

/-- The end of a sense or a verify of a bank: `finish` gives the bank's own change from whether the gate lets the bank go
on (R3, R96). -/
def State.stepEnd (s : State) (b : BankId) (ended : Step) (finish : Bank → Bool → Option Turn) :
    Host.Outcome State Fault Refusal :=
  if s.heldInReset || decide ((s.bank b).step ≠ some ended) then .refused .stepNotUnderWay
  else
    match finish (s.bank b) (s.gateAdmits b) with
    | none => .fault .stepWithoutOperation
    | some t => .next (s.conclude b t)

/-- PULSE_END: the verify begins at once (R2, R8). -/
def execPulseEnd (b : BankId) (s : State) : Host.Outcome State Fault Refusal :=
  if s.heldInReset then .refused .stepNotUnderWay
  else
    match (s.bank b).step with
    | some (.pulse use) => .next (s.setBank b ((s.bank b).pulseEnded use))
    | some (.sense _) => .refused .stepNotUnderWay
    | some (.verify _) => .refused .stepNotUnderWay
    | none => .refused .stepNotUnderWay

/-- READ_SENSE_END (R38). -/
def execReadSenseEnd (b : BankId) (cells : Option Page) (s : State) : Host.Outcome State Fault Refusal :=
  s.stepEnd b (.sense .read) fun bk _ => bk.readSensed cells

/-- BLANK_CHECK_END (R56). -/
def execBlankCheckEnd (b : BankId) (s : State) : Host.Outcome State Fault Refusal :=
  s.stepEnd b (.sense .blankCheck) fun bk gate => bk.blankChecked gate

/-- MAP_SCAN_SENSE_END (R160). -/
def execMapScanSenseEnd (b : BankId) (cells : Option Page) (s : State) : Host.Outcome State Fault Refusal :=
  s.stepEnd b (.sense .mapScan) fun bk _ => bk.mapSensed cells

/-- COARSE_VERIFY_END (R9). -/
def execCoarseVerifyEnd (b : BankId) (passed : Bool) (s : State) : Host.Outcome State Fault Refusal :=
  s.stepEnd b (.verify .coarse) fun bk gate => bk.coarseVerify passed gate

/-- FINE_VERIFY_END (R10). -/
def execFineVerifyEnd (b : BankId) (passed : Bool) (s : State) : Host.Outcome State Fault Refusal :=
  s.stepEnd b (.verify .fine) fun bk gate => bk.fineVerify passed gate

/-- ERASE_VERIFY_END (R72). -/
def execEraseVerifyEnd (b : BankId) (passed : Bool) (s : State) : Host.Outcome State Fault Refusal :=
  s.stepEnd b (.verify .erase) fun bk gate => bk.eraseVerify passed gate

/-- MAP_ERASE_VERIFY_END (R164). -/
def execMapEraseVerifyEnd (b : BankId) (passed : Bool) (s : State) : Host.Outcome State Fault Refusal :=
  s.stepEnd b (.verify .mapErase) fun bk _ => bk.mapEraseVerify passed

/-- MAP_PAGE_VERIFY_END (R163). -/
def execMapPageVerifyEnd (b : BankId) (passed : Bool) (s : State) : Host.Outcome State Fault Refusal :=
  s.stepEnd b (.verify .mapPage) fun bk _ => bk.mapPageVerify passed

end Sys2Proof.Machine
end

