-- ==== Sys2Proof/Machine/Bus.lean ====
section
/-! DEFINITION. The budget bus port and what it hands the budget controller: bit counts, the choice of a frame at the start
of an attempt, arbitration, the receive tests, the verdict slots, and the end of a frame (chapters 8 and 9). -/

namespace Sys2Proof.Machine

/-! ### Station states (R143) -/

/-- The port is on the bus (R124). -/
def StationState.onBus : StationState → Bool
  | .learning => true
  | .inService => true
  | .leaving => true
  | .unconfigured => false
  | .configured => false
  | .solo => false
  | .idConflict => false
  | .configMismatch => false
  | .rxFault => false
  | .txFault => false

/-- The four fault states (R143). -/
def StationState.isFault : StationState → Bool
  | .idConflict => true
  | .configMismatch => true
  | .rxFault => true
  | .txFault => true
  | .unconfigured => false
  | .configured => false
  | .solo => false
  | .learning => false
  | .inService => false
  | .leaving => false

/-- The states in which the port counts the line's bits: all but UNCONFIGURED and SOLO (R124, R142). -/
def StationState.watchesLine : StationState → Bool
  | .unconfigured => false
  | .solo => false
  | .configured => true
  | .learning => true
  | .inService => true
  | .leaving => true
  | .idConflict => true
  | .configMismatch => true
  | .rxFault => true
  | .txFault => true

/-- Nothing is being received or sent, and nothing driven (R123, R149, R156). -/
def Port.abandon (p : Port) : Port :=
  { p with framing := .outOfFrame, sending := none }

/-- The station enters a fault state: it leaves the bus, empties its transmit set, holds nothing in its own copy, ends
LAPSED and the learning window, and raises station news (R103, R149). -/
def State.enterFault (s : State) (f : StationState) : State :=
  { s with
    ctl :=
      { s.ctl.setOwn { s.ctl.own with held := 0, waiting := none } with
        station := f, transmit := emptyTransmit, lapsed := false, window := none, holdOff := none }
    port := s.port.abandon
    link := { s.link with stationNews := true } }

/-- The station enters CONFIGURED from the bus: its transmit set is emptied and its table kept (R155). -/
def State.enterConfigured (s : State) : State :=
  { s with
    ctl :=
      { s.ctl with
        station := .configured, transmit := emptyTransmit, lapsed := false, holdOff := none }
    port := s.port.abandon }

/-- DIVERGED is set, with its news where it was clear (R116, R176). -/
def State.setDiverged (s : State) : State :=
  { s with
    ctl := { s.ctl with diverged := true }
    link := { s.link with divergedNews := s.link.divergedNews || !s.ctl.diverged } }

/-! ### Bit counts (R124, R125, R142) -/

/-- The dominant count and BUS_STUCK after one bit, which `recessive` tells (R142). -/
def Port.countDominant (p : Port) (recessive : Bool) : Port :=
  if recessive then { p with dominantCount := 0 }
  else
    let n := min stuckBits (p.dominantCount + 1)
    { p with dominantCount := n, stuck := p.stuck || decide (n = stuckBits) }

/-- The recessive count after one bit read out of frame; at 16 BUS_STUCK clears (R124, R125, R142). -/
def Port.countRecessive (p : Port) (recessive : Bool) : Port :=
  if recessive then
    let n := min clearBits (p.recessiveCount + 1)
    { p with recessiveCount := n, stuck := p.stuck && decide (n ≠ clearBits) }
  else { p with recessiveCount := 0 }

/-- One bit read out of frame that starts no frame. -/
def Port.outBit (p : Port) (recessive : Bool) : Port :=
  (p.countRecessive recessive).countDominant recessive

/-- The bus is idle for the port: six recessive bits in a row have been read out of frame (R125). -/
def Port.idle (p : Port) : Bool :=
  decide (p.framing = .outOfFrame) && decide (idleBits ≤ p.recessiveCount)

/-- One bit read out of frame by a port on the bus: a dominant bit of an idle bus is the start bit of a frame (R125). -/
def Port.freeBit (p : Port) (recessive : Bool) : Port :=
  if !recessive && p.idle then { p.countDominant false with framing := .inFrame [false], recessiveCount := 0 }
  else p.outBit recessive

/-! ### The start of an attempt (R126, R137, R138) -/

/-- The targets of the pending EVICTs, lowest first (R138). -/
def TransmitSet.evictTargets (x : TransmitSet) : List StationId :=
  stationIds.filter fun k => (x.evict.entry k).isSome

/-- RELEASE is still wanted: H above N, or in LEAVING an own entry that holds (R92, R138, R154). -/
def State.releaseWanted (s : State) : Bool :=
  match s.ctl.station with
  | .leaving => decide (s.holding ≠ 0)
  | _ => decide (s.need < s.holding)

/-- The total a RELEASE carries: N, or 0 in LEAVING (R92, R154). -/
def State.releaseTotal (s : State) : Nat :=
  match s.ctl.station with
  | .leaving => 0
  | _ => s.need

/-- WITHDRAW is still wanted: the own entry waits, and outside LEAVING no claim is needed (R99, R154). -/
def State.withdrawWanted (s : State) : Bool :=
  s.ctl.own.waiting.isSome && (decide (s.ctl.station = .leaving) || !s.claimNeeded)

/-- L/2 in the model's unit of time (R93). -/
def Controller.renewTicks (c : Controller) : Nat := c.leaseTicks / 2

/-- The renewal timer has reached L/2 (R93). -/
def Controller.renewalReached (c : Controller) : Bool :=
  match c.renewal with
  | none => false
  | some t => decide (c.renewTicks ≤ t)

/-- The transmit set as the choice at an attempt's start leaves it: the RELEASE, RENEW, WITHDRAW and CLAIM that are no
longer wanted are removed, and a RENEW that gave way to a removed RELEASE is queued (R137, R138). A RENEW that an EVICT has left
with nothing to renew is sent with held 0 (R93, R119, R139) or removed (R93, R138): the manual says both, and the model leaves it
free (log entry 38). -/
def State.pruned (s : State) : TransmitSet :=
  let x := s.ctl.transmit
  let release := x.release && s.releaseWanted
  let renewQueued := x.renew || (x.release && !s.releaseWanted && s.ctl.renewalReached)
  { x with
    release := release
    renew := renewQueued && (s.ctl.own.active || (x.renew && Config.emptyRenewIsSent))
    withdraw := x.withdraw && s.withdrawWanted
    claim := x.claim && s.claimNeeded }

/-- The payload of a RENEW: the own entry as it stands (R93). -/
def Entry.renewPayload (e : Entry) : Payload :=
  .renew (BitVec.ofNat 8 e.held) (BitVec.ofNat 8 e.requested) (BitVec.ofNat 4 e.level)

/-- The payload of an EVICT of a target: the generation it was queued with (R117). -/
def TransmitSet.evictPayload (x : TransmitSet) (k : StationId) : Payload :=
  .evict k ((x.evict.entry k).getD 0#4)

/-- The kinds a state allows (R137). -/
def StationState.maySend : StationState → Payload → Bool
  | .learning, .hello _ => true
  | .inService, .claim _ _ => true
  | .inService, .release _ => true
  | .inService, .renew _ _ _ => true
  | .inService, .evict _ _ => true
  | .inService, .withdraw => true
  | .leaving, .release _ => true
  | .leaving, .renew _ _ _ => true
  | .leaving, .withdraw => true
  | _, _ => false

/-- The frames a transmit set offers, in the order in which one is chosen, each with its payload taken now
(R128, R138). -/
def State.offers (s : State) (x : TransmitSet) : List Payload :=
  (if x.release then [.release (BitVec.ofNat 8 s.releaseTotal)] else []) ++
  ((if x.renew then [s.ctl.own.renewPayload] else []) ++
  (x.evictTargets.map x.evictPayload ++
  ((if x.withdraw then [.withdraw] else []) ++
  ((if x.claim then [.claim (BitVec.ofNat 8 s.claimTotal) (BitVec.ofNat 4 s.ctl.own.level)] else []) ++
  (if x.hello then [.hello s.ctl.nonce] else [])))))

/-- The frame chosen at the start of an attempt (R138). -/
def State.chosen (s : State) : Option Payload :=
  (s.offers s.pruned).find? s.ctl.station.maySend

/-- A bit begins: the station starts an attempt if the bus is idle, it is on the bus and not stuck, and its set holds a frame it
may send; what the choice found unwanted is removed (R126, R138). -/
def State.startAttempt (s : State) : State :=
  if s.ctl.station.onBus && s.port.idle && !s.port.stuck && s.port.sending.isNone then
    let pruned : State := { s with ctl := { s.ctl with transmit := s.pruned } }
    match s.chosen with
    | none => pruned
    | some p =>
      { pruned with port :=
        { s.port with
          framing := .inFrame []
          recessiveCount := 0
          sending := some ⟨p, frameLine s.ctl.id s.ctl.digest p⟩ } }
  else s

/-! ### A frame as this station took part in it (R131 to R133) -/

/-- What the receive tests find, the first that decides (R133). -/
inductive Finding where
  | badCheck
  | malformed
  | ownId
  | foreignDigest
  | outOfRange
  | good (p : Payload)
deriving DecidableEq, Repr

/-- This station's part in a frame. -/
inductive Part where
  /-- it sent the frame to the end of the check field -/
  | sent (p : Payload)
  /-- it drove dominant and read recessive (R132) -/
  | faulted
  /-- it received the frame, from the start or after a loss -/
  | received (f : Finding)
deriving DecidableEq, Repr

/-- The receive tests, in their order (R133). -/
def receiveTests (own : StationId) (digest : BitVec 8) (budget : Nat) (l : Line) : Finding :=
  if lineRemainder l ≠ lineCheck l then .badCheck
  else if classOfKind (lineKind l) ≠ some (lineCls l) then .malformed
  else if lineStation l = own then .ownId
  else if lineDigest l ≠ digest then .foreignDigest
  else
    match payloadOf (lineKind l) (linePayload l) with
    | none => .outOfRange
    | some p => if p.inRange budget (lineStation l) then .good p else .outOfRange

/-- The first bit of the arbitration, 1 to 49, at which a contender reads another level than it drove (R131). -/
def firstDifference (drove read : Line) : Option Nat :=
  ((List.range 49).map fun k => k + 1).find? fun k => lineBit drove k != lineBit read k

/-- This station's part in a frame that was read as `l` (R131, R132, R133). -/
def Controller.part (c : Controller) (sending : Option Attempt) (l : Line) : Part :=
  let tests := receiveTests c.id c.digest c.budget l
  match sending with
  | none => .received tests
  | some a =>
    match firstDifference a.line l with
    | none => .sent a.payload
    | some k => if lineBit a.line k then .received tests else .faulted

/-- The receiver rejects the frame (R133). -/
def Finding.rejects : Finding → Bool
  | .badCheck => true
  | .malformed => true
  | .outOfRange => true
  | .ownId => false
  | .foreignDigest => false
  | .good _ => false

/-- This station drives the reject slot dominant (R132, R134). -/
def Part.rejects : Part → Bool
  | .sent _ => false
  | .faulted => true
  | .received f => f.rejects

/-- The sender and the payload of a frame that this station may apply (R104, R133). -/
def Part.carries (own : StationId) (l : Line) : Part → Option (StationId × Payload)
  | .sent p => some (own, p)
  | .faulted => none
  | .received (.good p) => some (lineStation l, p)
  | .received _ => none

/-- The judgement of a good CLAIM: whether it fits the station's copy (R114, R115). -/
def Controller.judges (c : Controller) : Option (StationId × Payload) → Option Bool
  | some (sender, .claim q level) => some (fits c.budget c.table sender q.toNat level.toNat)
  | _ => none

/-! ### The bits of a frame, one by one (R123, R131, R134, R135) -/

/-- The check field has been read: the station takes the frame through its tests, and judges a good CLAIM if it is IN_SERVICE
(R115, R133, R134). -/
def State.checkRead (s : State) (heard : List Bool) : Port :=
  let part := s.ctl.part s.port.sending (lineOfBits heard)
  { s.port with
    judgement :=
      if s.ctl.station = .inService then s.ctl.judges (part.carries s.ctl.id (lineOfBits heard)) else none
    droveReject := part.rejects
    droveObjection := false }

/-- In the objection slot the station objects to a CLAIM that it found not to fit, if it is still IN_SERVICE and the reject slot
read recessive (R115, R134, R135, R154). -/
def State.objects (s : State) (heard : List Bool) : Bool :=
  heard.getD checkEnd false && decide (s.port.judgement = some false) && decide (s.ctl.station = .inService)

/-- What the port fixes with the next bit of a frame, of which so much has been read with that bit. -/
def State.slotsAfter (s : State) (heard : List Bool) : Port :=
  if heard.length = checkEnd then s.checkRead heard
  else if heard.length = checkEnd + 2 then { s.port with droveObjection := s.objects heard }
  else s.port

/-- The next bit of a frame as the line reads it: a station's own start bit and the verdict slots it drives read dominant
(R123, R134, R135, log entry 8). -/
def State.readLevel (s : State) (heard : List Bool) (recessive : Bool) : Bool :=
  if heard.length = 0 then false
  else if heard.length = checkEnd then recessive && !s.port.droveReject
  else if heard.length = checkEnd + 1 then recessive && !s.objects heard
  else recessive

/-- The bit that the station puts on the line next; `true`: it leaves the line alone. A contender sends until a bit it read
differs from the one it drove (R123, R131, R132). -/
def State.drives (s : State) : Bool :=
  match s.port.framing with
  | .outOfFrame => true
  | .inFrame heard =>
    if heard.length < checkEnd then
      match s.port.sending with
      | none => true
      | some a =>
        if (List.range heard.length).all fun k => lineBit a.line k == heard.getD k true then lineBit a.line heard.length
        else true
    else if heard.length = checkEnd then !s.port.droveReject
    else if heard.length = checkEnd + 1 then !s.objects heard
    else true

/-! ### The end of a frame (R136) -/

/-- The verdict of a frame for this station. -/
structure Verdict where
  part : Part
  /-- the reject slot reads dominant (R134) -/
  rejected : Bool
  /-- the objection slot reads dominant (R135) -/
  objected : Bool
  /-- the frame that this station applies, with its sender (R104, R136) -/
  applies : Option (StationId × Payload)
deriving DecidableEq, Repr

/-- The verdict of a frame read as `l` (R104, R134, R135). -/
def State.verdict (s : State) (l : Line) : Verdict :=
  let part := s.ctl.part s.port.sending l
  { part := part
    rejected := lineRejectDominant l
    objected := lineObjectionDominant l
    applies := if lineRejectDominant l then none else part.carries s.ctl.id l }

/-- The transmit set once a frame this station sent has been applied: the frame leaves it, and so does a RENEW
(R93, R139). An EVICT leaves it as stale when it is examined. -/
def TransmitSet.afterOwn (x : TransmitSet) : Payload → TransmitSet
  | .hello _ => { x with hello := false, renew := false }
  | .claim _ _ => { x with claim := false, renew := false }
  | .release _ => { x with release := false, renew := false }
  | .renew _ _ _ => { x with renew := false }
  | .evict _ _ => { x with renew := false }
  | .withdraw => { x with withdraw := false, renew := false }

/-- The learning window opens with the station's own HELLO (R148). -/
def Controller.windowAfterOwn (c : Controller) : Payload → Option Nat
  | .hello _ => if c.station = .learning then some 0 else c.window
  | _ => c.window

/-- What a frame this station sent brings when it is applied: the renewal timer restarts and LAPSED ends
(R93, R94, R120, R148). -/
def Controller.ownFrame (c : Controller) (p : Payload) : Controller :=
  { c with
    transmit := c.transmit.afterOwn p
    renewal := some 0
    lapsed := false
    window := c.windowAfterOwn p }

/-- An IN_SERVICE station examines its pending EVICTs and queues those due (R117, R118). -/
def Controller.tendEvicts (c : Controller) : Controller :=
  if c.station = .inService then
    { c with transmit := { c.transmit with
        evict := examineEvicts c.leaseTicks c.id c.table c.transmit.evict } }
  else c

/-- A frame is applied to the station's copy, and the controller acts on it (R104, R118, R120). -/
def Controller.applyFrom (c : Controller) (sender : StationId) (p : Payload) (objected : Bool) : Controller :=
  let c' := { c with table := applyFrame c.table sender p objected }
  (if sender = c.id then c'.ownFrame p else c').tendEvicts

/-- The station's copy disagreed with the frame: its own verdict on a CLAIM was the other one (R116; also where it has since become
LEAVING, log entry 39), or a RENEW states another held value while it is IN_SERVICE or LEAVING (R109). -/
def State.disagrees (s : State) (v : Verdict) : Bool :=
  match v.applies with
  | none => false
  | some (sender, p) =>
    (decide (p.kind = 1#3) && decide (s.port.judgement = some v.objected)) ||
      ((decide (s.ctl.station = .inService) || decide (s.ctl.station = .leaving)) &&
        renewDiffers s.ctl.table s.ctl.id sender p)

/-- The frame is applied, where this station applies it (R136, 1). -/
def State.applyVerdict (s : State) (v : Verdict) : State :=
  match v.applies with
  | none => s
  | some (sender, p) =>
    let s' : State := { s with ctl := s.ctl.applyFrom sender p v.objected }
    if s.disagrees v then s'.setDiverged else s'

/-- The runs after a frame that is not broken (R139, R140, R141). -/
def Port.countRuns (p : Port) (v : Verdict) : Port :=
  match v.part with
  | .sent _ =>
    { p with rejectionRun := if v.rejected then min rejectionRunLimit (p.rejectionRun + 1) else 0 }
  | .faulted => { p with rejectionRun := min rejectionRunLimit (p.rejectionRun + 1) }
  | .received (.good _) => { p with rejectRun := 0 }
  | .received .badCheck => { p with rejectRun := min rejectRunLimit (p.rejectRun + 1) }
  | .received .malformed => { p with rejectRun := min rejectRunLimit (p.rejectRun + 1) }
  | .received .outOfRange => { p with rejectRun := min rejectRunLimit (p.rejectRun + 1) }
  | .received .ownId => p
  | .received .foreignDigest => p

/-- The fault state that a frame which is not broken takes the station to (R136, R149). -/
def Port.faultAfter (p : Port) (part : Part) : Option StationState :=
  match part with
  | .received .ownId => some .idConflict
  | .received .foreignDigest => some .configMismatch
  | _ =>
    if rejectionRunLimit ≤ p.rejectionRun then some .txFault
    else if rejectRunLimit ≤ p.rejectRun then some .rxFault
    else none

/-- The attempt was lost in the class or id field of the frame read as `l`: it is settled at the idle after (R132, R139). -/
def Attempt.lostEarly (a : Attempt) (l : Line) : Bool :=
  match firstDifference a.line l with
  | none => false
  | some k => decide (k ≤ 6) && lineBit a.line k

/-- The port out of frame again after a frame it was in, its attempt settled unless it was lost in the class or id field
(R136, R139). -/
def Port.frameOver (p : Port) (l : Line) : Port :=
  { p with
    framing := .outOfFrame
    recessiveCount := lineClosingRecessive l
    sending := p.sending.filter fun a => a.lostEarly l }

/-- The station leaves the bus where the frame requires it: a fault, or the end of LEAVING (R136, R149, R154). -/
def State.leaveBus (s : State) (v : Verdict) (broken : Bool) : State :=
  match if broken then none else s.port.faultAfter v.part with
  | some f => s.enterFault f
  | none =>
    if s.ctl.station = .leaving ∧ v.applies.isSome ∧ !s.ctl.own.active then s.enterConfigured else s

/-- The end of a frame that this station was in, read as `l`: apply, update the runs, leave the bus if required, settle the
attempt (R136). -/
def State.endFrame (s : State) (l : Line) : State :=
  let v := s.verdict l
  let a := s.applyVerdict v
  let port := a.port.frameOver l
  let runs := if lineBroken l then port else port.countRuns v
  (({ a with port := runs }).leaveBus v (lineBroken l)).settle

/-! ### One bit time (R124, R125) -/

/-- One bit of a frame the port is in (R131 to R136). -/
def State.frameBit (s : State) (heard : List Bool) (recessive : Bool) : State :=
  let read := s.readLevel heard recessive
  let heard' := heard ++ [read]
  if heard'.length < frameBits then
    { s with port := { (s.slotsAfter heard').countDominant read with framing := .inFrame heard' } }
  else ({ s with port := s.port.countDominant read }).endFrame (lineOfBits heard')

/-- One bit out of frame of a port on the bus. At the idle after a loss in the class or id field the attempt is settled, and the
gate is no longer bound by a RELEASE that was in it (R88, R125, R139). -/
def State.freeBit (s : State) (recessive : Bool) : State :=
  let p := s.port.freeBit recessive
  if p.sending.isSome && p.idle then ({ s with port := { p with sending := none } }).settle
  else { s with port := p }

/-- One bit time: BDAT is read at a level. Off the bus every bit is read out of frame, and in UNCONFIGURED, in SOLO and in reset
none is read (R124, R142, R178, log entry 19). -/
def State.readBit (s : State) (recessive : Bool) : State :=
  if s.heldInReset then s
  else if s.ctl.station.onBus then
    match s.port.framing with
    | .outOfFrame => s.freeBit recessive
    | .inFrame heard => s.frameBit heard recessive
  else if s.ctl.station.watchesLine then { s with port := s.port.outBit recessive }
  else s

/-- Bits read one after another. -/
def State.readBits (s : State) (bits : List Bool) : State := bits.foldl State.readBit s

/-- Bits of one level, read one after another as long as the port's counts ask for more, `most` at most. -/
def State.readWhile (s : State) (recessive : Bool) (going : Port → Bool) : (most : Nat) → State
  | 0 => s
  | most + 1 => if going s.port then (s.readBit recessive).readWhile recessive going most else s

end Sys2Proof.Machine
end

