-- ==== Sys2Proof/Machine/BusSteps.lean ====
section
/-! DEFINITION. The happenings on the budget bus: the stuck line, the start of an attempt and the end of a frame
(chapter 8). Each brings the bits that BDAT is read at, and what the rules make of them is the same as for bits that come one by
one (log entry 7). -/

namespace Sys2Proof.Machine

/-- BUS_STUCK_SET: the line reads dominant, up to the 128th dominant bit in a row (R142, log entry 21). -/
def execBusStuckSet (s : State) : Host.Outcome State Fault Refusal :=
  .next (s.readWhile false (fun p => decide (p.dominantCount < stuckBits)) stuckBits)

/-- BUS_STUCK_CLEAR: the line reads recessive, up to the 16th recessive bit in a row read out of frame; what is left of a frame
comes before them (R142, log entry 21). -/
def execBusStuckClear (s : State) : Host.Outcome State Fault Refusal :=
  .next (s.readWhile true (fun p => decide (p.recessiveCount < clearBits)) (frameBits + clearBits))

/-- ATTEMPT_START: a bit begins (R126, R138, log entry 30). -/
def execAttemptStart (s : State) : Host.Outcome State Fault Refusal :=
  if s.heldInReset then .next s else .next s.startAttempt

/-- FRAME_END: the recessive bits are read and then the others, with the last of which a frame's end field has been read
(R136). -/
def execFrameEnd (recessive : Nat) (bits : List Bool) (s : State) : Host.Outcome State Fault Refusal :=
  .next ((s.readBits (List.replicate recessive true)).readBits bits)

end Sys2Proof.Machine
end

