-- ==== Sys2Proof/Machine/HostData.lean ====
section
/-! DEFINITION. The host commands that move page data: LOAD_STAGING, FETCH_OUTPUT and RELEASE_OUTPUT (chapters 3 and 4). -/

namespace Sys2Proof.Machine

/-- Data bytes are written into one staging slot, which becomes loaded (R50). -/
def Bank.loadStaging (bk : Bank) (p : Position) (offset : Nat) (data : List Byte) : Bank :=
  { bk with staging := bk.staging.set p ⟨true, pageWrite (bk.staging.get p).page offset data⟩ }

/-- LOAD_STAGING (R50). -/
def execLoadStaging (params : List Byte) (s : State) : Host.Outcome State Fault Refusal :=
  s.transaction fun s =>
    match loadParams params with
    | none => s.answer .badLength
    | some l =>
      match bankOf l.bank, positionOf l.position with
      | some b, some p =>
        if transferInRange l.offset l.length then
          (s.setBank b ((s.bank b).loadStaging p l.offset l.data)).answer .accepted
        else s.answer .badValue
      | _, _ => s.answer .badAddress

/-- FETCH_OUTPUT (R43). -/
def execFetchOutput (params : List Byte) (s : State) : Host.Outcome State Fault Refusal :=
  s.transaction fun s =>
    match fetchParams params with
    | none => s.answer .badLength
    | some (bank, offset, length) =>
      match bankOf bank with
      | none => s.answer .badAddress
      | some b =>
        if transferInRange offset length then
          match (s.bank b).output.holder with
          | none => s.answer .outputEmpty
          | some tag => s.answerData (tag :: pageBytesAt (s.bank b).output.page offset length)
        else s.answer .badValue

/-- The output buffer becomes free, its bytes unchanged (R44). -/
def Bank.freeOutput (bk : Bank) : Bank :=
  { bk with output := { bk.output with holder := none } }

/-- RELEASE_OUTPUT (R44). A READ that waits for the buffer takes it in the same change. -/
def execReleaseOutput (params : List Byte) (s : State) : Host.Outcome State Fault Refusal :=
  s.transaction fun s =>
    match oneByte params with
    | none => s.answer .badLength
    | some bank =>
      match bankOf bank with
      | none => s.answer .badAddress
      | some b =>
        if (s.bank b).outputFree then s.answer .outputEmpty
        else (s.setBank b (s.bank b).freeOutput).settle.answer .accepted

end Sys2Proof.Machine
end

