-- ==== Sys2Proof/Machine/HostPosts.lean ====
section
/-! DEFINITION. The host commands of the operation table: the four posts, ABORT and TAKE_COMPLETIONS (chapter 2). -/

namespace Sys2Proof.Machine

/-- A post is accepted: its slot is filled and enters its bank queue at the tail (R21, R22). -/
def State.enqueue (s : State) (tag : Byte) (b : BankId) (block : Nat) (op : HostOp) : State :=
  let bk := s.bank b
  (s.setBank b { bk with queue := bk.queue ++ [Slot.posted tag op b block] }).settle.answer .accepted

/-- The checks of a post, the first that fails giving the response (R21). -/
def State.post (s : State) (p : Option Post) : State :=
  match p with
  | none => s.answer .badLength
  | some p =>
    match p.target with
    | none => s.answer .badAddress
    | some (b, block, op) =>
      if s.tagsInUse.contains p.tag then s.answer .tagInUse
      else if slotLimit ≤ s.slotsInUse then s.answer .noSlot
      else if queueLimit ≤ (s.bank b).queue.length then s.answer .queueFull
      else s.enqueue p.tag b block op

/-- POST_READ (R21). -/
def execPostRead (params : List Byte) (s : State) : Host.Outcome State Fault Refusal :=
  s.transaction fun s => s.post (readPost params)

/-- POST_PROGRAM (R21). -/
def execPostProgram (params : List Byte) (s : State) : Host.Outcome State Fault Refusal :=
  s.transaction fun s => s.post (programPost params)

/-- POST_FINISH (R21). -/
def execPostFinish (params : List Byte) (s : State) : Host.Outcome State Fault Refusal :=
  s.transaction fun s => s.post (finishPost params)

/-- POST_ERASE (R21). -/
def execPostErase (params : List Byte) (s : State) : Host.Outcome State Fault Refusal :=
  s.transaction fun s => s.post (erasePost params)

/-- The operation of a slot that is not RUNNING, RECORDING or DONE ends at once (R31, R33, R98). -/
def State.stopNow (s : State) (b : BankId) (sl : Slot) (outcome : OpOutcome) : State :=
  (s.withTurn b ((s.bank b).stopSlot sl outcome)).settle

/-- A RUNNING slot's stop request is set (R32). -/
def State.requestStop (s : State) (b : BankId) (tag : Byte) : State :=
  s.setBank b { s.bank b with
    queue := updateTag tag (fun sl => { sl with stopRequest := true }) (s.bank b).queue }

/-- ABORT of a slot found in a bank queue (R30). -/
def State.abortSlot (s : State) (b : BankId) (sl : Slot) : State :=
  match sl.state with
  | .queued => (s.stopNow b sl .aborted).answer .accepted
  | .waiting => (s.stopNow b sl .aborted).answer .accepted
  | .held => (s.stopNow b sl .aborted).answer .accepted
  | .suspended => (s.stopNow b sl .aborted).answer .accepted
  | .outputWait => (s.stopNow b sl .aborted).answer .accepted
  | .running => (s.requestStop b sl.tag).answer .accepted
  | .recording => s.answer .alreadyDone
  | .done => s.answer .alreadyDone

/-- A slot of a bank queue by its tag, with its bank (R20, R30). -/
def State.slotOfTag (s : State) (tag : Byte) : Option (BankId × Slot) :=
  match findTag tag s.bank0.queue with
  | some sl => some (.zero, sl)
  | none =>
    match findTag tag s.bank1.queue with
    | some sl => some (.one, sl)
    | none => none

/-- ABORT (R30). -/
def execAbort (params : List Byte) (s : State) : Host.Outcome State Fault Refusal :=
  s.transaction fun s =>
    match oneByte params with
    | none => s.answer .badLength
    | some tag =>
      match s.slotOfTag tag with
      | some (b, sl) => s.abortSlot b sl
      | none => if s.tagsInUse.contains tag then s.answer .alreadyDone else s.answer .noSuchTag

/-- The data of TAKE_COMPLETIONS: the number of records, then the records (R29, R181). -/
def completionBytes (taken : List DoneSlot) : List Byte :=
  BitVec.ofNat 8 taken.length :: taken.flatMap fun d => d.record.bytes

/-- TAKE_COMPLETIONS (R29). -/
def execTakeCompletions (params : List Byte) (s : State) : Host.Outcome State Fault Refusal :=
  s.transaction fun s =>
    match oneByte params with
    | none => s.answer .badLength
    | some n =>
      if n.toNat = 0 ∨ 8 < n.toNat then s.answer .badValue
      else
        ({ s with completions := s.completions.drop n.toNat }).answerData
          (completionBytes (s.completions.take n.toNat))

end Sys2Proof.Machine
end

