-- ==== Sys2Proof/Machine/HostStation.lean ====
section
/-! DEFINITION. The host commands that move the station: CONFIGURE, JOIN and LEAVE (chapter 9). -/

namespace Sys2Proof.Machine

/-- A WAITING or HELD slot's wait-time accumulator restarts (R98, R145). -/
def Slot.restartWait (sl : Slot) : Slot :=
  if sl.state = .waiting ∨ sl.state = .held then { sl with waitTime := 0 } else sl

/-- The accumulators of a bank's slots restart (R145). -/
def Bank.restartWaits (bk : Bank) : Bank :=
  { bk with queue := bk.queue.map Slot.restartWait }

/-- The own entry of a station that becomes SOLO (R102, R145). -/
def Entry.soloStart (e : Entry) : Entry :=
  { e with known := true, held := 0, waiting := none, generation := 0#4 }

/-- The controller after an accepted CONFIGURE (R145). -/
def Controller.configured (c : Controller) (g : Settings) : Controller :=
  let c' := { c with settings := some g, digest := digestOf g.budget g.lease }
  match g.busUse with
  | .shared => { c' with station := .configured }
  | .solo => { c'.setOwn c'.own.soloStart with station := .solo }

/-- The effect of an accepted CONFIGURE (R145). -/
def State.configure (s : State) (g : Settings) : State :=
  ({ s with
      ctl := s.ctl.configured g
      bank0 := s.bank0.restartWaits
      bank1 := s.bank1.restartWaits }.settle).answer .accepted

/-- CONFIGURE (R145). -/
def execConfigure (params : List Byte) (s : State) : Host.Outcome State Fault Refusal :=
  s.transaction fun s =>
    match configureParams params with
    | none => s.answer .badLength
    | some p =>
      if s.ctl.station ≠ .unconfigured then s.answer .wrongState
      else
        match p.settings with
        | none => s.answer .badValue
        | some g => s.configure g

/-- The states in which JOIN is taken (R146). -/
def StationState.mayJoin : StationState → Bool
  | .configured => true
  | .rxFault => true
  | .txFault => true
  | .unconfigured => false
  | .solo => false
  | .learning => false
  | .inService => false
  | .leaving => false
  | .idConflict => false
  | .configMismatch => false

/-- The effect of an accepted JOIN: the table is cleared, HELLO alone is queued, and the port comes on the bus (R124,
R146). The renewal timer does not run until the HELLO is applied (R147). -/
def State.joinBus (s : State) : State :=
  { s with
    ctl :=
      { s.ctl with
        station := .learning, table := clearedTable, transmit := { emptyTransmit with hello := true }
        renewal := none, lapsed := false, holdOff := none, window := none }
    port :=
      { s.port with
        framing := .outOfFrame, recessiveCount := 0, sending := none, rejectionRun := 0, rejectRun := 0 } }

/-- JOIN (R146). -/
def execJoin (params : List Byte) (s : State) : Host.Outcome State Fault Refusal :=
  s.transaction fun s =>
    if params ≠ [] then s.answer .badLength
    else if s.ctl.station.mayJoin then s.joinBus.answer .accepted
    else s.answer .wrongState

/-- Every slot is FREE or DONE and no bank has an internal operation (R153). -/
def State.idle (s : State) : Bool :=
  s.bank0.queue.isEmpty && s.bank1.queue.isEmpty && s.bank0.internal.isNone && s.bank1.internal.isNone

/-- The station enters LEAVING: CLAIMs and EVICTs are removed, RELEASE with total 0 and WITHDRAW are queued as the own entry
asks, and the hold-off is cleared (R154). -/
def State.startLeaving (s : State) : State :=
  let x := { s.ctl.transmit with claim := false, evict := Vector.replicate 16 none, hello := false }
  { s with ctl := { s.ctl with station := .leaving, transmit := x }.tendLeaving }

/-- LEAVE (R153). -/
def execLeave (params : List Byte) (s : State) : Host.Outcome State Fault Refusal :=
  s.transaction fun s =>
    if params ≠ [] then s.answer .badLength
    else if s.ctl.station = .inService ∧ s.idle then
      if s.ctl.own.active then s.startLeaving.answer .accepted else s.enterConfigured.answer .accepted
    else s.answer .wrongState

end Sys2Proof.Machine
end

