-- ==== Sys2Proof/Machine/HostViews.lean ====
section
/-! DEFINITION. The host commands that return a view: READ_STATUS, READ_BUDGET_TABLE and READ_RETIRED (R122, R168, R174,
R183). -/

namespace Sys2Proof.Machine

/-- A number as one byte of a view. -/
def viewByte (n : Nat) : Byte := BitVec.ofNat 8 n

/-- Offsets 2 to 5 of the status view; all 0 in UNCONFIGURED (R174, R183). -/
def settingsBytes : Option Settings → List Byte
  | none => [0#8, 0#8, 0#8, 0#8]
  | some g => [g.busUse.code, viewByte g.budget, viewByte g.lease, viewByte g.waitLimit]

/-- The code of the internal operation that stands ahead (R183). -/
def internalCode : Option Internal → Byte
  | none => 0#8
  | some ⟨.mapLoad _, _⟩ => 1#8
  | some ⟨.mapUpdate _, _⟩ => 2#8
  | some ⟨.rewriteErase _, _⟩ => 3#8
  | some ⟨.rewritePage _ _, _⟩ => 3#8

/-- Offsets 3 to 5 of a bank part: the open block and its next word line (R183). -/
def openBlockBytes : Option OpenBlock → List Byte
  | none => [0xFF#8, 0xFF#8, 0xFF#8]
  | some r => bytes16 r.block ++ [viewByte r.next]

/-- The 7 bytes of a bank part (R183). -/
def Bank.part (bk : Bank) : List Byte :=
  [internalCode bk.internal, bk.mapState.code,
    bitsByte [bk.openBlock.isSome, bk.staging.low.loaded, bk.staging.middle.loaded, bk.staging.high.loaded,
      bk.output.holder.isSome]] ++
    openBlockBytes bk.openBlock ++ [bk.output.holder.getD 0#8]

/-- The 33 bytes of the status view (R174, R183). -/
def State.statusView (s : State) : List Byte :=
  [s.ctl.station.code, viewByte s.ctl.id.toNat] ++ settingsBytes s.ctl.settings ++
    [bitsByte [s.ctl.lapsed, s.ctl.diverged, s.ctl.window.isSome, s.port.stuck], viewByte s.holding, viewByte s.need,
      viewByte s.ctl.own.level, viewByte s.bank0.reservation, viewByte s.bank1.reservation,
      viewByte s.port.rejectionRun, viewByte s.port.rejectRun, viewByte s.slotsInUse, viewByte s.completions.length,
      viewByte s.bank0.queue.length, viewByte s.bank1.queue.length] ++
    s.bank0.part ++ s.bank1.part ++ [s.link.newsByte]

/-- READ_STATUS clears the news flags and DIVERGED (R175). -/
def State.clearNews (s : State) : State :=
  { s with
    ctl := { s.ctl with diverged := false }
    link := { s.link with stationNews := false, divergedNews := false, mapNews0 := false, mapNews1 := false } }

/-- READ_STATUS (R175). -/
def execReadStatus (params : List Byte) (s : State) : Host.Outcome State Fault Refusal :=
  s.transaction fun s =>
    if params ≠ [] then s.answer .badLength else s.clearNews.answerData s.statusView

/-- The 8 bytes of one entry (R183). -/
def Entry.bytes (e : Entry) : List Byte :=
  [bitsByte [e.known, e.waiting.isSome, e.nonce.isSome], viewByte e.held, viewByte e.requested, viewByte e.level,
    viewByte e.generation.toNat] ++ bytes16 ((e.nonce.map BitVec.toNat).getD 0) ++ [viewByte (min 255 e.age)]

/-- The 134 bytes of the budget table view (R122, R183). -/
def State.budgetView (s : State) : List Byte :=
  [viewByte s.ctl.id.toNat, s.ctl.station.code, viewByte s.ctl.budget] ++ bytes16 (tableTotal s.ctl.table) ++
    [optByte 0xFF#8 ((precedentWaiter s.ctl.table).map BitVec.toNat)] ++
    stationIds.flatMap fun k => (s.ctl.table.entry k).bytes

/-- READ_BUDGET_TABLE (R122). -/
def execReadBudgetTable (params : List Byte) (s : State) : Host.Outcome State Fault Refusal :=
  s.transaction fun s =>
    if params ≠ [] then s.answer .badLength else s.answerData s.budgetView

/-- The retired view (R168, R183). -/
def Bank.retiredView (bk : Bank) : List Byte :=
  [bk.mapState.code, mapBlockCode bk.mapBlock, viewByte bk.nextMapPage] ++ bytes32 bk.mapSeq ++
    [viewByte bk.mapFailureRun, viewByte bk.retired.length] ++ bk.retired.flatMap RetiredEntry.bytes

/-- READ_RETIRED (R168). -/
def execReadRetired (params : List Byte) (s : State) : Host.Outcome State Fault Refusal :=
  s.transaction fun s =>
    match oneByte params with
    | none => s.answer .badLength
    | some bank =>
      match bankOf bank with
      | none => s.answer .badAddress
      | some b => s.answerData (s.bank b).retiredView

end Sys2Proof.Machine
end

