-- ==== Sys2Proof/Machine/LinkReset.lean ====
section
/-! DEFINITION. DIE_RESET, the transactions that are no command, and the die reset itself (chapter 11). -/

namespace Sys2Proof.Machine

/-- DIE_RESET: answered at once; the reset begins when its transaction ends (R179). -/
def execDieReset (params : List Byte) (s : State) : Host.Outcome State Fault Refusal :=
  s.transaction fun s =>
    if params ≠ [] then s.answer .badLength
    else
      let s' := s.answer .accepted
      { s' with link := { s'.link with resetTaken := true } }

/-- UNKNOWN_COMMAND (R171). -/
def execUnknownCommand (code : Byte) (_params : List Byte) (s : State) : Host.Outcome State Fault Refusal :=
  if commandCodes.contains code then .refused .anotherRow
  else s.transaction fun s => s.answer .unknownCommand

/-- TRANSACTION_CUT: nothing is taken and nothing changes, and no response can reach the host (R172). -/
def execTransactionCut (clockedIn : List Byte) (s : State) : Host.Outcome State Fault Refusal :=
  if commandComplete clockedIn then .refused .anotherRow else s.transaction fun s => s

/-- The block whose first erase pulse a bank has under way, host block or map block (R16). -/
def Bank.erasePulseCut (bk : Bank) : Option Nat :=
  match bk.step with
  | some (.pulse use) => bk.firstErasePulseOf use
  | some (.sense _) => none
  | some (.verify _) => none
  | none => none

/-- The step under way in a bank is cut. Only a first erase pulse leaves its block's cells open (R16). -/
def Bank.cutStep (bk : Bank) (cut : Nat) : Bank :=
  { bk with
    step := none
    array :=
      match bk.erasePulseCut with
      | none => bk.array
      | some block => bk.array.cutErase block cut }

/-- A source holds the die in reset from now on (R178). -/
def ResetHold.begin (h : ResetHold) : ResetSource → ResetHold
  | .powerOn => { h with powerOn := true }
  | .pin => { h with pin := true }
  | .command => { h with command := true }

/-- A source holds the die in reset no longer (R178). -/
def ResetHold.finish (h : ResetHold) : ResetSource → ResetHold
  | .powerOn => { h with powerOn := false }
  | .pin => { h with pin := false }
  | .command => { h with command := false }

/-- A source holds the die in reset. -/
def ResetHold.holds (h : ResetHold) : ResetSource → Bool
  | .powerOn => h.powerOn
  | .pin => h.pin
  | .command => h.command

/-- A source's reset begins: steps are cut, BDAT is released, and a transaction in progress is abandoned (R16, R156, R178,
R180). The two banks' cuts take two fresh numbers (log entry 15). -/
def State.beginReset (s : State) (source : ResetSource) : State :=
  { s with
    bank0 := s.bank0.cutStep s.fresh
    bank1 := s.bank1.cutStep (s.fresh + 1)
    fresh := s.fresh + 2
    port := s.port.abandon
    link := { s.link with response := [], resetTaken := false }
    inReset := s.inReset.begin source }

/-- DIE_RESET_BEGIN (R178). The DIE_RESET command is a source only once it has been taken (R179). -/
def execDieResetBegin (source : ResetSource) (s : State) : Host.Outcome State Fault Refusal :=
  if source = .command ∧ !s.link.resetTaken then .refused .resetSourceAbsent
  else .next (s.beginReset source)

/-- Every block takes up its die-reset state, the array keeping its marks and bytes (R15, R34, R48, R69, R102, R124, R144,
R158, R160, R178, R180). -/
def State.afterReset (s : State) (straps : StationId) (nonce : Nonce) (hselLow : Bool) : State :=
  { bank0 := Bank.afterReset s.bank0.array
    bank1 := Bank.afterReset s.bank1.array
    completions := []
    ctl := Controller.afterReset straps nonce
    port := Port.afterReset
    link := Link.afterReset hselLow
    inReset := ResetHold.none
    fresh := s.fresh
    pending := s.pending
    wire := s.wire }

/-- DIE_RESET_END: the die comes out when the last source has ended (R178). -/
def execDieResetEnd (source : ResetSource) (straps : StationId) (nonce : Nonce) (hselLow : Bool) (s : State) :
    Host.Outcome State Fault Refusal :=
  if s.inReset.holds source then
    if s.inReset.finish source = ResetHold.none then .next (s.afterReset straps nonce hselLow)
    else .next { s with inReset := s.inReset.finish source }
  else .refused .resetSourceAbsent

end Sys2Proof.Machine
end

