-- ==== Sys2Proof/Machine/TimerSteps.lean ====
section
/-! DEFINITION. The expiries of the timers, and the passing of time on an empty command queue (chapters 6, 7 and 9). Each
expiry asserts that its timer has reached its limit, and moves the timer there (log entry 2). -/

namespace Sys2Proof.Machine

/-- The slot of a tag that is WAITING or HELD, to which the wait limit applies (R98). -/
def State.waitingSlot (s : State) (tag : Byte) : Option (BankId × Slot) :=
  (s.slotOfTag tag).filter fun x => x.2.state == .waiting || x.2.state == .held

/-- WAIT_LIMIT_EXPIRY (R98). -/
def execWaitLimitExpiry (tag : Byte) (s : State) : Host.Outcome State Fault Refusal :=
  s.happening (decide (s.ctl.waitTicks ≠ 0) && (s.waitingSlot tag).isSome) .timerNotRunning fun s =>
    match s.waitingSlot tag with
    | none => s
    | some (b, sl) => s.stopNow b { sl with waitTime := max sl.waitTime s.ctl.waitTicks } .budgetTimeout

/-- The hold-off runs out: RELEASE is queued, or in SOLO applied at once (R92, R100). -/
def State.holdOffOver (s : State) : State :=
  let c := { s.ctl with holdOff := none }
  if s.need < s.holding then
    if c.station = .solo then { s with ctl := c.setOwn { c.own.advanced with held := s.need } }
    else { s with ctl := { c with transmit := c.transmit.queueRelease } }
  else { s with ctl := c }

/-- RELEASE_HOLD_OFF_EXPIRY (R92). -/
def execReleaseHoldOffExpiry (s : State) : Host.Outcome State Fault Refusal :=
  s.happening s.ctl.holdOff.isSome .timerNotRunning fun s => s.holdOffOver.settle

/-- The states in which the renewal timer and the self-lease count (R93, R94). -/
def StationState.keepsLease : StationState → Bool
  | .inService => true
  | .leaving => true
  | .unconfigured => false
  | .configured => false
  | .solo => false
  | .learning => false
  | .idConflict => false
  | .configMismatch => false
  | .rxFault => false
  | .txFault => false

/-- The renewal timer runs and the own entry holds or waits (R93, R94). -/
def Controller.leaseRuns (c : Controller) : Bool :=
  c.station.keepsLease && c.renewal.isSome && c.own.active

/-- The renewal timer moved to at least a limit. -/
def Controller.renewalAt (c : Controller) (limit : Nat) : Controller :=
  { c with renewal := c.renewal.map (max limit) }

/-- RENEWAL_DUE: RENEW is queued, unless a RELEASE is pending (R93, R137). -/
def execRenewalDue (s : State) : Host.Outcome State Fault Refusal :=
  s.happening s.ctl.leaseRuns .timerNotRunning fun s =>
    let c := s.ctl.renewalAt s.ctl.renewTicks
    { s with ctl := { c with transmit := { c.transmit with renew := c.transmit.renew || !c.transmit.release } } }

/-- SELF_LEASE_LAPSE: the station becomes LAPSED (R94). -/
def execSelfLeaseLapse (s : State) : Host.Outcome State Fault Refusal :=
  s.happening s.ctl.leaseRuns .timerNotRunning fun s =>
    ({ s with ctl := { s.ctl.renewalAt s.ctl.leaseTicks with lapsed := true } }).settle

/-- An entry whose last-heard age has passed a limit. -/
def Entry.silent (e : Entry) (limit : Nat) : Entry :=
  { e with age := max e.age (limit + 1) }

/-- The last-heard age of a station's entry passes L; an IN_SERVICE station queues EVICT of an entry that holds or waits
(R105, R117). -/
def Controller.ageOut (c : Controller) (k : StationId) : Controller :=
  ({ c with table := c.table.put k ((c.table.entry k).silent c.leaseTicks) }).tendEvicts

/-- LAST_HEARD_AGE_EXPIRY (R117). -/
def execLastHeardAgeExpiry (k : StationId) (s : State) : Host.Outcome State Fault Refusal :=
  s.happening s.ctl.settings.isSome .timerNotRunning fun s => { s with ctl := s.ctl.ageOut k }

/-- LEARNING_WINDOW_END: the station is IN_SERVICE (R148). -/
def execLearningWindowEnd (s : State) : Host.Outcome State Fault Refusal :=
  s.happening (decide (s.ctl.station = .learning) && s.ctl.window.isSome) .timerNotRunning fun s =>
    ({ s with ctl :=
      { s.ctl with
        station := .inService
        window := none
        transmit := { s.ctl.transmit with hello := false } }.tendEvicts }).settle

/-! ### The passing of time (log entry 1) -/

/-- A slot after one unit of time: its accumulator runs in WAITING and HELD (R25). -/
def Slot.tick (sl : Slot) : Slot :=
  if sl.state = .waiting ∨ sl.state = .held then { sl with waitTime := sl.waitTime + 1 } else sl

/-- A bank after one unit of time. -/
def Bank.tick (bk : Bank) : Bank := { bk with queue := bk.queue.map Slot.tick }

/-- The timers of the budget controller after one unit of time (R92, R93, R105, R148). -/
def Controller.tick (c : Controller) : Controller :=
  { c with
    table := c.table.map fun e => { e with age := e.age + 1 }
    renewal := c.renewal.map (· + 1)
    holdOff := c.holdOff.map (· + 1)
    window := c.window.map (· + 1) }

/-- One unit of time, 100 µs, passes; in reset no timer runs (R178, log entry 1). -/
def State.tick (s : State) : State :=
  if s.heldInReset then s
  else { s with bank0 := s.bank0.tick, bank1 := s.bank1.tick, ctl := s.ctl.tick }

end Sys2Proof.Machine
end

