-- ==== Sys2Proof/Machine/Dispatch.lean ====
section
/-! DEFINITION. One arm for each row of the table, each a call of its meaning. -/

namespace Sys2Proof.Machine

def exec (i : Instr) (s : State) : Host.Outcome State Fault Refusal :=
  match i with
  | .configure params => Sys2Proof.Machine.execConfigure params s
  | .join params => Sys2Proof.Machine.execJoin params s
  | .leave params => Sys2Proof.Machine.execLeave params s
  | .postRead params => Sys2Proof.Machine.execPostRead params s
  | .postProgram params => Sys2Proof.Machine.execPostProgram params s
  | .postFinish params => Sys2Proof.Machine.execPostFinish params s
  | .postErase params => Sys2Proof.Machine.execPostErase params s
  | .abort params => Sys2Proof.Machine.execAbort params s
  | .loadStaging params => Sys2Proof.Machine.execLoadStaging params s
  | .fetchOutput params => Sys2Proof.Machine.execFetchOutput params s
  | .releaseOutput params => Sys2Proof.Machine.execReleaseOutput params s
  | .takeCompletions params => Sys2Proof.Machine.execTakeCompletions params s
  | .readStatus params => Sys2Proof.Machine.execReadStatus params s
  | .readBudgetTable params => Sys2Proof.Machine.execReadBudgetTable params s
  | .readRetired params => Sys2Proof.Machine.execReadRetired params s
  | .dieReset params => Sys2Proof.Machine.execDieReset params s
  | .unknownCommand code params => Sys2Proof.Machine.execUnknownCommand code params s
  | .transactionCut clockedIn => Sys2Proof.Machine.execTransactionCut clockedIn s
  | .dieResetBegin source => Sys2Proof.Machine.execDieResetBegin source s
  | .dieResetEnd source straps nonce hselLow => Sys2Proof.Machine.execDieResetEnd source straps nonce hselLow s
  | .pulseEnd bank => Sys2Proof.Machine.execPulseEnd bank s
  | .readSenseEnd bank cells => Sys2Proof.Machine.execReadSenseEnd bank cells s
  | .blankCheckEnd bank => Sys2Proof.Machine.execBlankCheckEnd bank s
  | .mapScanSenseEnd bank cells => Sys2Proof.Machine.execMapScanSenseEnd bank cells s
  | .coarseVerifyEnd bank passed => Sys2Proof.Machine.execCoarseVerifyEnd bank passed s
  | .fineVerifyEnd bank passed => Sys2Proof.Machine.execFineVerifyEnd bank passed s
  | .eraseVerifyEnd bank passed => Sys2Proof.Machine.execEraseVerifyEnd bank passed s
  | .mapEraseVerifyEnd bank passed => Sys2Proof.Machine.execMapEraseVerifyEnd bank passed s
  | .mapPageVerifyEnd bank passed => Sys2Proof.Machine.execMapPageVerifyEnd bank passed s
  | .waitLimitExpiry tag => Sys2Proof.Machine.execWaitLimitExpiry tag s
  | .releaseHoldOffExpiry => Sys2Proof.Machine.execReleaseHoldOffExpiry s
  | .renewalDue => Sys2Proof.Machine.execRenewalDue s
  | .selfLeaseLapse => Sys2Proof.Machine.execSelfLeaseLapse s
  | .lastHeardAgeExpiry station => Sys2Proof.Machine.execLastHeardAgeExpiry station s
  | .learningWindowEnd => Sys2Proof.Machine.execLearningWindowEnd s
  | .busStuckSet => Sys2Proof.Machine.execBusStuckSet s
  | .busStuckClear => Sys2Proof.Machine.execBusStuckClear s
  | .attemptStart => Sys2Proof.Machine.execAttemptStart s
  | .frameEnd recessive bits => Sys2Proof.Machine.execFrameEnd recessive bits s

end Sys2Proof.Machine
end

