-- ==== Sys2Proof/Machine/Step.lean ====
section
/-! DEFINITION. One step of the block: the command at the front of the queue is taken; on an empty queue the next bit of the
line is read, and where no bit waits one unit of time passes. -/

namespace Sys2Proof.Machine

/-- No command comes: BDAT is read at its next bit, or, where none waits, 100 µs pass (log entry 1). -/
def State.idleStep (s : State) : State :=
  match s.wire with
  | [] => s.tick
  | b :: rest => ({ s with wire := rest }).readBit b

/-- Take the command at the front of the queue. On an empty queue no command comes (log entries 1 and 29). -/
def step (s : State) : Host.Outcome State Fault Refusal :=
  match s.pending with
  | [] => .next s.idleStep
  | c :: rest => exec c { s with pending := rest }

/-- The state with the command that a word spells at the front of its queue; the table spells none by bits. -/
def State.withFetchWord (s : State) (nbits w : Nat) : State :=
  match decodeTableWord nbits w with
  | none => s
  | some c => { s with pending := c :: s.pending }

end Sys2Proof.Machine
end

