-- ==== Sys2Proof/Safety.lean ====
section
/-! DEFINITION. What counts as a sound state, in the terms that the claims use: canonical stores, a sound operation table,
banks whose parts agree with each other, a table within the budget, a port that is quiet off the bus, and current drawn
only under budget. -/

namespace Sys2Proof.Machine

/-! ### The host link -/

/-- The die takes the next transaction's command: it is out of reset, no DIE_RESET has been taken, and no transaction
straddles the end of a reset (R178, R179, R180). -/
def State.ready (s : State) : Bool :=
  !s.heldInReset && !s.link.resetTaken && !s.link.awaitRise

/-- The parameter count that the Formats chapter requires for each code (R171, R181). -/
def lengthFits (code : Byte) (params : List Byte) : Bool :=
  if code = 0x11#8 then decide (params.length = 4)
  else if code = 0x21#8 then decide (params.length = 6)
  else if code = 0x22#8 ∨ code = 0x24#8 ∨ code = 0x32#8 then decide (params.length = 5)
  else if code = 0x23#8 then decide (params.length = 4)
  else if code = 0x2F#8 ∨ code = 0x33#8 ∨ code = 0x41#8 ∨ code = 0x44#8 then decide (params.length = 1)
  else if code = 0x31#8 then
    match params with
    | _ :: _ :: _ :: _ :: l1 :: l0 :: data => decide (data.length = l1.toNat * 256 + l0.toNat)
    | _ => false
  else decide (params.length = 0)

/-- What a post asks for, as its parameters are read; none for a command that is no post, and within it none for a wrong
length (R21, R181). -/
def postOf : Instr → Option (Option Post)
  | .postRead params => some (readPost params)
  | .postProgram params => some (programPost params)
  | .postFinish params => some (finishPost params)
  | .postErase params => some (erasePost params)
  | .configure _ => none
  | .join _ => none
  | .leave _ => none
  | .abort _ => none
  | .loadStaging _ => none
  | .fetchOutput _ => none
  | .releaseOutput _ => none
  | .takeCompletions _ => none
  | .readStatus _ => none
  | .readBudgetTable _ => none
  | .readRetired _ => none
  | .dieReset _ => none
  | .unknownCommand _ _ => none
  | .transactionCut _ => none
  | .dieResetBegin _ => none
  | .dieResetEnd _ _ _ _ => none
  | .pulseEnd _ => none
  | .readSenseEnd _ _ => none
  | .blankCheckEnd _ => none
  | .mapScanSenseEnd _ _ => none
  | .coarseVerifyEnd _ _ => none
  | .fineVerifyEnd _ _ => none
  | .eraseVerifyEnd _ _ => none
  | .mapEraseVerifyEnd _ _ => none
  | .mapPageVerifyEnd _ _ => none
  | .waitLimitExpiry _ => none
  | .releaseHoldOffExpiry => none
  | .renewalDue => none
  | .selfLeaseLapse => none
  | .lastHeardAgeExpiry _ => none
  | .learningWindowEnd => none
  | .busStuckSet => none
  | .busStuckClear => none
  | .attemptStart => none
  | .frameEnd _ _ => none

/-- The happening ends an array step of a bank. -/
def endsStepOf (b : BankId) : Instr → Bool
  | .pulseEnd x => decide (x = b)
  | .readSenseEnd x _ => decide (x = b)
  | .blankCheckEnd x => decide (x = b)
  | .mapScanSenseEnd x _ => decide (x = b)
  | .coarseVerifyEnd x _ => decide (x = b)
  | .fineVerifyEnd x _ => decide (x = b)
  | .eraseVerifyEnd x _ => decide (x = b)
  | .mapEraseVerifyEnd x _ => decide (x = b)
  | .mapPageVerifyEnd x _ => decide (x = b)
  | _ => false

/-- A bank's step under way is a verify. -/
def Bank.verifying (bk : Bank) : Bool :=
  match bk.step with
  | some (.verify _) => true
  | some (.pulse _) => false
  | some (.sense _) => false
  | none => false

/-! ### Canonical stores -/

/-- The array's three stores are in canonical form. -/
def ArrayBank.canonical (a : ArrayBank) : Bool :=
  Store.wf blankByte a.cells && Store.wf noMarks a.marks && Store.wf true a.eraseMarks

/-- Three pages are in canonical form. -/
def trioWf (t : Trio Page) : Bool := pageWf t.low && pageWf t.middle && pageWf t.high

/-- Every page a bank holds is in canonical form, and an empty staging slot holds 0xFF throughout (R49). -/
def Bank.pagesWf (bk : Bank) : Bool :=
  trioWf (bk.staging.map StagingSlot.page) &&
    [bk.staging.low, bk.staging.middle, bk.staging.high].all (fun s => s.loaded || decide (s.page = [])) &&
    (match bk.latch with | none => true | some t => trioWf t) &&
    (match bk.pendingSlot with | none => true | some p => trioWf p.pages) &&
    (match bk.senseLatch with | none => true | some r => pageWf r.page) && pageWf bk.output.page

/-- Every store of the state is canonical, and every command that waits is well formed. -/
def State.canonical (s : State) : Bool :=
  s.bank0.array.canonical && s.bank1.array.canonical && s.bank0.pagesWf && s.bank1.pagesWf && s.pending.all Instr.wf

/-! ### The operation table (R18, R19, R20, R22, R28) -/

/-- At most 8 slots are in use, at most 6 operations stand in a bank queue, no tag is held twice, the completion queue holds
DONE slots and the bank queues none. -/
def State.tableSound (s : State) : Bool :=
  decide (s.slotsInUse ≤ slotLimit) && decide (s.bank0.queue.length ≤ queueLimit) &&
    decide (s.bank1.queue.length ≤ queueLimit) && decide s.tagsInUse.Nodup &&
    s.completions.all (fun d => decide (d.slot.state = .done) && decide (d.record.tag = d.slot.tag)) &&
    s.bank0.queue.all (fun sl => decide (sl.state ≠ .done) && decide (sl.bank = .zero)) &&
    s.bank1.queue.all (fun sl => decide (sl.state ≠ .done) && decide (sl.bank = .one))

/-! ### A bank whose parts agree -/

/-- The address fields of a slot are in range (R18). -/
def Slot.inRange (sl : Slot) : Bool :=
  decide (sl.block < hostBlocks) &&
    (match sl.op with
      | .read w _ => decide (w < blockWordLines)
      | .program w => decide (w < blockWordLines)
      | .finish => true
      | .erase _ => true)

/-- A slot that waits behind the front of its queue. -/
def Slot.isQueued (sl : Slot) : Bool := decide (sl.state = .queued)

/-- The READ taken to run during a suspension, at its place in the queue (R77). -/
def Slot.overtakes (sl : Slot) : Bool :=
  sl.isRead && ((decide (sl.state = .waiting)) || (decide (sl.state = .running) && decide (sl.path = some .sensing)))

/-- Behind a SUSPENDED ERASE of a block one READ of another block overtakes, and everything else is QUEUED (R76, R77). -/
def oneOvertakes (block : Nat) (behind : List Slot) : Bool :=
  let ahead := behind.takeWhile Slot.isRead
  decide ((behind.filter fun sl => !sl.isQueued).length = 1) &&
    ahead.any fun sl => sl.overtakes && decide (sl.block ≠ block)

/-- The head of a queue with no internal operation ahead of it, and what stands behind it (R19, R77). -/
def frontShaped (sl : Slot) (behind : List Slot) : Bool :=
  match sl.state with
  | .queued => false
  | .waiting => behind.all Slot.isQueued
  | .running => behind.all Slot.isQueued && (!sl.isRead || decide (sl.path = some .sensing))
  | .held => behind.all Slot.isQueued && !sl.isRead
  | .suspended =>
    (match sl.op with
      | .erase suspendable => suspendable
      | .read _ _ => false
      | .program _ => false
      | .finish => false) && oneOvertakes sl.block behind
  | .outputWait => behind.all Slot.isQueued && sl.isRead
  | .recording => false
  | .done => false

/-- The queue's states fit what stands at the front of the bank (R19, R23, R26, R76). -/
def Bank.queueShaped (bk : Bank) : Bool :=
  match bk.internal with
  | some ⟨.mapLoad _, _⟩ => bk.queue.all Slot.isQueued
  | some _ =>
    match bk.queue with
    | [] => false
    | sl :: behind => decide (sl.state = .recording) && !sl.isRead && behind.all Slot.isQueued
  | none =>
    match bk.queue with
    | [] => true
    | sl :: behind => frontShaped sl behind

/-- The fields of each slot agree with its state and kind (R18, R25, R26, R35). -/
def Slot.sound (sl : Slot) : Bool :=
  sl.inRange && (!sl.stopRequest || decide (sl.state = .running)) &&
    decide (sl.failure.isSome = decide (sl.state = .recording)) &&
    decide (sl.suspensions ≤ suspensionLimit) && decide (sl.pulses ≤ fineLimit) &&
    (!sl.isQueued || (decide (sl.pulses = 0) && !sl.arrayTouched && sl.path.isNone)) &&
    (!decide (sl.state = .waiting) || (decide (sl.pulses = 0) && !sl.arrayTouched && (sl.path.isSome == sl.isRead)))

/-- The array step that the front of a bank has under way (R2, R13). -/
def Bank.stepsOfFront (bk : Bank) : Option (List Step) :=
  match bk.internal with
  | some i =>
    if i.begun then
      match i.op with
      | .mapLoad _ => some [.sense .mapScan]
      | .mapUpdate _ => some [.pulse .mapPage, .verify .mapPage]
      | .rewriteErase _ => some [.pulse .mapErase, .verify .mapErase]
      | .rewritePage _ _ => some [.pulse .mapPage, .verify .mapPage]
    else none
  | none =>
    if bk.isRunning then
      match bk.queue with
      | [] => none
      | sl :: _ =>
        match sl.state, sl.op with
        | .suspended, _ => some [.sense .read]
        | _, .read _ _ => some [.sense .read]
        | _, .erase _ => some [.pulse .erase, .verify .erase]
        | _, .program _ =>
          match bk.pass with
          | none => some [.sense .blankCheck]
          | some p => some [.pulse p.kind.use, .verify p.kind.use]
        | _, .finish => some [.pulse .fine, .verify .fine]
    else none

/-- The step under way is the one that the front of the bank has (R2). -/
def Bank.stepFits (bk : Bank) : Bool :=
  match bk.step, bk.stepsOfFront with
  | none, none => true
  | some st, some sts => sts.contains st
  | none, some _ => false
  | some _, none => false

/-- The passes that a PROGRAM of a word line runs (R58, R59, R60). -/
def programPass (w : Nat) (p : Pass) : Bool :=
  match p.kind with
  | .coarse => decide (p.wordLine = w)
  | .fine => decide (1 ≤ w) && (decide (p.wordLine + 1 = w) || (decide (w = 63) && decide (p.wordLine = 63)))

/-- A PROGRAM or FINISH that has begun stands in a pass it runs, with the stores that the pass takes (R57 to R62, R68);
nothing else has a pass or a full latch. -/
def Bank.passFits (bk : Bank) : Bool :=
  let idle := bk.pass.isNone && bk.latch.isNone
  match bk.internal, bk.queue with
  | some _, _ => idle
  | none, [] => idle
  | none, sl :: _ =>
    let begun := decide (sl.state = .running) || decide (sl.state = .held)
    match sl.op with
    | .read _ _ => idle
    | .erase _ => idle
    | .program w =>
      if begun then
        match bk.pass with
        | none => bk.latch.isNone && decide (w = 0) && !sl.arrayTouched
        | some p =>
          bk.latch.isSome && programPass w p && decide (bk.passPulses ≤ p.kind.limit) && sl.arrayTouched &&
            (decide (0 < bk.passPulses) || (decide (p.kind = .fine) && decide (sl.state = .held)))
      else idle
    | .finish =>
      if begun then
        bk.latch.isNone &&
          (match bk.pass with
            | none => false
            | some p =>
              decide (p.kind = .fine) && decide (0 < bk.passPulses) && decide (bk.passPulses ≤ fineLimit) &&
                sl.arrayTouched && decide (bk.openBlock = some ⟨sl.block, p.wordLine + 1⟩))
      else idle

/-- The open-block record and the pending slot stand and fall together, and name the same word line (R52, R53). -/
def Bank.openFits (bk : Bank) : Bool :=
  match bk.openBlock, bk.pendingSlot with
  | none, none => true
  | some r, some p =>
    decide (r.block < hostBlocks) && decide (1 ≤ r.next) && decide (r.next ≤ 63) && decide (p.block = r.block) &&
      decide (p.wordLine + 1 = r.next)
  | none, some _ => false
  | some _, none => false

/-- A head that has passed its start point addresses what its start-time checks found: the open block for a PROGRAM or a
FINISH, no open block for a PROGRAM of word line 0, and a block that is not retired (R24, R55, R62). -/
def Bank.headFits (bk : Bank) : Bool :=
  match bk.internal, bk.queue with
  | some _, _ => true
  | none, [] => true
  | none, sl :: _ =>
    let write := !bk.isRetired sl.block && decide (bk.mapState ≠ .lost)
    match sl.op with
    | .read _ _ => true
    | .program w =>
      write && (if w = 0 then bk.openBlock.isNone else decide (bk.openBlock = some ⟨sl.block, w⟩))
    | .finish => write && bk.opens sl.block
    | .erase _ =>
      write && decide (sl.pulses ≤ eraseLimit) && (decide (sl.pulses = 0) || !bk.opens sl.block) &&
        (decide (sl.state = .waiting) || decide (1 ≤ sl.pulses))

/-- The marks of the word lines at work agree with the pass (R4, R5, R9, R10, R52). -/
def Bank.marksFit (bk : Bank) : Bool :=
  bk.array.marks.all (fun c => c.2.legal) &&
    (match bk.openBlock with
      | none => true
      | some r => (bk.array.marksOf r.block (r.next - 1)).coarseDone) &&
    (match bk.queue, bk.pass with
      | sl :: _, some p =>
        let m := bk.array.marksOf sl.block p.wordLine
        match p.kind with
        | .coarse => m.coarseBegun
        | .fine =>
          m.coarseDone && (decide (bk.passPulses = 0) || m.fineBegun) &&
            (match sl.op with
              | .program w => (bk.array.marksOf sl.block w).coarseDone
              | .read _ _ => true
              | .finish => true
              | .erase _ => true)
      | [], _ => true
      | _ :: _, none => true)

/-- A retired list as the part keeps it: at most 64 entries, of blocks 0 to 2045, each block once (R157). -/
def listFits (entries : List RetiredEntry) : Bool :=
  decide (entries.length ≤ retiredLimit) && distinctBlocks entries && entries.all fun e => decide (e.block < hostBlocks)

/-- A MAP_LOAD's scan stands on a word line of a block, and what it has found is on word lines and fits a retired list (R160). -/
def Scan.fits (scan : Scan) : Bool :=
  decide (scan.wordLine < mapPages) && decide (scan.firstErasedA.getD 0 < mapPages) &&
    decide (scan.firstErasedB.getD 0 < mapPages) &&
    (match scan.best with
      | none => true
      | some best => listFits best.entries && decide (best.wordLine < mapPages))

/-- The block map unit's fields agree with the map state and with the internal operation (R157, R158, R160 to R165). -/
def Bank.mapFits (bk : Bank) : Bool :=
  listFits bk.retired && decide (bk.nextMapPage ≤ mapPages) && decide (bk.mapFailureRun ≤ mapFailureLimit) &&
    (match bk.mapState, bk.internal with
      | .loading, some ⟨.mapLoad scan, _⟩ => scan.fits
      | .loading, _ => false
      | .lost, i => i.isNone && bk.mapBlock.isNone
      | .degraded, i => i.isNone && bk.mapBlock.isSome
      | .loaded, none => bk.mapBlock.isSome && decide (bk.mapFailureRun < mapFailureLimit)
      | .loaded, some ⟨.mapLoad _, _⟩ => false
      | .loaded, some ⟨.mapUpdate n, begun⟩ =>
        bk.mapBlock.isSome && decide (bk.nextMapPage < mapPages) && decide (n ≤ mapPageLimit) &&
          (begun == decide (1 ≤ n)) && decide (bk.mapFailureRun < mapFailureLimit)
      | .loaded, some ⟨.rewriteErase n, begun⟩ =>
        bk.mapBlock.isSome && decide (n ≤ eraseLimit) && (begun == decide (1 ≤ n)) &&
          decide (bk.mapFailureRun < mapFailureLimit)
      | .loaded, some ⟨.rewritePage w n, begun⟩ =>
        bk.mapBlock.isSome && begun && decide (1 ≤ n) && decide (n ≤ mapPageLimit) && decide (w < mapFailureLimit) &&
          decide (w ≤ bk.mapFailureRun) && decide (bk.mapFailureRun < mapFailureLimit))

/-- The sense latch holds a result exactly while a READ of the bank waits for the output buffer, and the buffer is free while a
READ overtakes a SUSPENDED ERASE (R39, R42, R75). -/
def Bank.latchFits (bk : Bank) : Bool :=
  (bk.outputFree || bk.queue.all fun sl => decide (sl.state ≠ .suspended)) &&
  match bk.senseLatch with
  | none => bk.queue.all fun sl => decide (sl.state ≠ .outputWait)
  | some r =>
    match bk.queue with
    | [] => false
    | sl :: _ => decide (sl.state = .outputWait) && decide (r.owner = .read sl.tag) && !bk.outputFree

/-- The parts of a bank agree with each other. -/
def Bank.coherent (bk : Bank) : Bool :=
  bk.queueShaped && bk.queue.all Slot.sound && bk.stepFits && bk.passFits && bk.openFits && bk.headFits &&
    bk.marksFit && bk.mapFits && bk.latchFits && (!bk.pauseOrder || bk.hostRunning)

/-- Every set of marks in a bank is one of the five of R5. -/
def ArrayBank.marksLegal (a : ArrayBank) : Bool := a.marks.all fun c => c.2.legal

/-- The state's banks agree with themselves. In reset a bank's step has been cut, and what the reset will keep is sound. -/
def State.coherent (s : State) : Bool :=
  s.tableSound && s.bank0.array.marksLegal && s.bank1.array.marksLegal &&
    (s.heldInReset || (s.bank0.coherent && s.bank1.coherent))

/-! ### The budget (R101, R102, R143) -/

/-- An entry within a budget (R101). -/
def Entry.within (budget : Nat) (e : Entry) : Bool :=
  decide (e.held ≤ budget) && decide (e.requested ≤ budget) && decide (e.level ≤ 15)

/-- The frame of the current attempt carries values in range for B (R128). -/
def State.sendsInRange (s : State) : Bool :=
  match s.port.sending with
  | none => true
  | some a => a.payload.inRange s.ctl.budget s.ctl.id

/-- The configuration is in its ranges and agrees with the station state: none exactly in UNCONFIGURED, and bus use SOLO exactly
in SOLO (R129, R143, R145). -/
def Controller.settingsFit (c : Controller) : Bool :=
  match c.settings with
  | none => decide (c.station = .unconfigured)
  | some g =>
    decide (c.station ≠ .unconfigured) && decide (6 ≤ g.budget) && decide (g.budget ≤ 240) &&
      decide (1 ≤ g.lease) && decide (g.lease ≤ 16) && decide (g.waitLimit ≤ 255) &&
      decide (c.digest = digestOf g.budget g.lease) && (decide (g.busUse = .solo) == decide (c.station = .solo))

/-- Every entry, what runs, and the frame being sent are within B, which is 0 before CONFIGURE (R88, R101, R102, R128). -/
def State.withinBudget (s : State) : Bool :=
  stationIds.all (fun k => (s.ctl.table.entry k).within s.ctl.budget) && s.ctl.settingsFit && s.sendsInRange &&
    decide (s.bank0.runningReservation + s.bank1.runningReservation ≤ s.ctl.budget)

/-- The transmit set holds only kinds that the station's state may send (R137). -/
def Controller.transmitFits (c : Controller) : Bool :=
  let x := c.transmit
  let evicts := !x.evictTargets.isEmpty
  match c.station with
  | .learning => !(x.claim || x.release || x.renew || x.withdraw || evicts)
  | .inService => !x.hello && !(x.release && x.renew) && (x.evict.entry c.id).isNone
  | .leaving => !(x.hello || x.claim || evicts) && !(x.release && x.renew)
  | _ => !(x.hello || x.claim || x.release || x.renew || x.withdraw || evicts)

/-- The port's framing position fits what it counts and sends: in frame it is on the bus at bit 0 to 54, out of frame an attempt
that was lost waits for less than the idle it is settled at, and BUS_STUCK stands as the counts give (R124, R125, R139, R142). -/
def State.framed (s : State) : Bool :=
  (match s.port.framing with
    | .outOfFrame => s.port.sending.isNone || decide (s.port.recessiveCount < idleBits)
    | .inFrame heard =>
      s.ctl.station.onBus && decide (heard.length < frameBits) && (!heard.isEmpty || s.port.sending.isSome) &&
        decide (s.port.recessiveCount = 0)) &&
    (s.port.stuck || decide (s.port.dominantCount < stuckBits)) &&
    (!s.port.stuck || decide (s.port.recessiveCount < clearBits))

/-- Off the bus the port sends nothing; LAPSED stands only in IN_SERVICE and LEAVING, the learning window only in LEARNING,
the hold-off only in IN_SERVICE and SOLO; in UNCONFIGURED and SOLO no other station's entry is known (R94, R100, R123, R124, R137, R148). -/
def State.quiet (s : State) : Bool :=
  s.ctl.transmitFits && (s.ctl.station.onBus || s.port.sending.isNone) &&
    (!s.ctl.lapsed || s.ctl.station.keepsLease) &&
    (s.ctl.window.isNone || decide (s.ctl.station = .learning)) &&
    (s.ctl.holdOff.isNone || decide (s.ctl.station = .inService) || decide (s.ctl.station = .solo)) &&
    ((decide (s.ctl.station ≠ .solo) && decide (s.ctl.station ≠ .unconfigured)) ||
      (idsBut s.ctl.id).all fun k => decide ({ s.ctl.table.entry k with age := 0 } = clearedEntry)) &&
    decide (s.port.rejectionRun ≤ rejectionRunLimit) && decide (s.port.rejectRun ≤ rejectRunLimit) &&
    decide (s.port.recessiveCount ≤ clearBits) && decide (s.port.dominantCount ≤ stuckBits) && s.framed

/-- Every host operation that runs is admitted by the gate or has its pause order, and in SOLO what runs is within H, and H
within B (R88, R96, R100). -/
def State.drawsWithin (s : State) : Bool :=
  s.heldInReset ||
    ((!s.bank0.hostRunning || s.gateAdmits .zero || s.bank0.pauseOrder) &&
      (!s.bank1.hostRunning || s.gateAdmits .one || s.bank1.pauseOrder) &&
      (decide (s.ctl.station ≠ .solo) ||
        (decide (s.bank0.runningReservation + s.bank1.runningReservation ≤ s.holding) &&
          decide (s.holding ≤ s.ctl.budget))))

end Sys2Proof.Machine
end

