-- ==== Sys2Proof/Certificates/Slice0/Obligations.lean ====
section
/-! DEFINITION. The statements about the model, for the provers. -/

open Sys2Proof Sys2Proof.Machine

/-! ### The command queue and the host link -/

/-- A step runs the command at the front of the queue, with the queue's rest. The queue is the model's own (log entry 29). -/
def Obligations.StepTakesTheFrontCommand : Prop :=
  ∀ (s : State) (c : Instr) (rest : List Instr), s.pending = c :: rest →
    step s = exec c { s with pending := rest }

/-- On an empty queue the die reads the line at its next bit where one waits, as the same bit at a frame's end is read; where
none does, 100 µs pass: every accumulator of a WAITING or HELD slot, every last-heard age and every timer that runs advances by
one unit, and nothing else changes; in reset nothing does. That bits wait in the state and that one unit passes is the model's
choice (log entry 1). -/
def Obligations.IdleStepLetsTimePass : Prop :=
  ∀ s : State, s.pending = [] →
    (∀ b rest, s.wire = b :: rest → step s = exec (.frameEnd 0 [b]) { s with wire := rest }) ∧
    (s.wire = [] → s.heldInReset = true → step s = .next s) ∧
    (s.wire = [] → s.heldInReset = false →
      let older := fun q : List Slot => q.map fun sl =>
        if sl.state = .waiting ∨ sl.state = .held then { sl with waitTime := sl.waitTime + 1 } else sl
      step s = .next { s with
        bank0 := { s.bank0 with queue := older s.bank0.queue }
        bank1 := { s.bank1 with queue := older s.bank1.queue }
        ctl := { s.ctl with
          table := s.ctl.table.map fun e => { e with age := e.age + 1 }
          renewal := s.ctl.renewal.map (· + 1)
          holdOff := s.ctl.holdOff.map (· + 1)
          window := s.ctl.window.map (· + 1) } })

/-- No command is taken while the die is in reset, once DIE_RESET has been taken, or in a transaction that straddles the end
of a reset. That such a row changes nothing but the wait for HSEL_N's rise is the model's reading (log entries 17, 18). -/
def Obligations.NoCommandIsTakenInReset : Prop :=
  ∀ (c : Instr) (s : State), c.wf = true → (c.command?.isSome = true ∨ ∃ bytes, c = .transactionCut bytes) →
    ((s.heldInReset = true ∨ s.link.resetTaken = true) → exec c s = .next s) ∧
    (s.heldInReset = false → s.link.resetTaken = false → s.link.awaitRise = true →
      exec c s = .next { s with link := { s.link with awaitRise := false } })

/-- A command whose parameter count is not the required one is answered BAD_LENGTH, and a code that is no command code
UNKNOWN_COMMAND; a transaction cut short in its command phase takes nothing. None of them changes any other state. The row
that a transaction does not belong to is refused by name (log entry 3). -/
def Obligations.UnjudgedCommandsChangeNothing : Prop :=
  ∀ (code : Byte) (params bytes : List Byte) (s : State), s.ready = true →
    (code ∈ commandCodes → lengthFits code params = false →
      exec (commandOf code params) s = .next { s with link := { s.link with response := [0x02#8] } }) ∧
    (code ∉ commandCodes →
      exec (.unknownCommand code params) s = .next { s with link := { s.link with response := [0x01#8] } }) ∧
    (code ∈ commandCodes → exec (.unknownCommand code params) s = .refused .anotherRow) ∧
    (commandComplete bytes = false → exec (.transactionCut bytes) s = .next s) ∧
    (commandComplete bytes = true → exec (.transactionCut bytes) s = .refused .anotherRow)

/-- Decoding the bytes of a transaction that carries a well-formed command gives that command, with every parameter at every
value, whatever is clocked in during the response phase; so does decoding the bits of HDI, each byte sent most significant bit
first, with a byte that HSEL_N cuts short discarded. HDO sends its bytes in the same order while HSEL_N is low and the die is
out of reset, and is not driven otherwise. -/
def Obligations.DecodedTransactionIsTheEncodedCommand : Prop :=
  (∀ (c : Instr) (bytes extra : List Byte), c.wf = true → c.encode = some bytes →
    decodeTransaction (bytes ++ extra) = c ∧
    ∀ cut : List Bool, cut.length < 8 →
      decodeHdi ((bytes ++ extra).flatMap (fun b => (List.range 8).map fun k => b.getMsbD k) ++ cut) = c) ∧
  (∀ (bytes : List Byte) (cut : List Bool), cut.length < 8 → commandComplete bytes = false →
    decodeHdi (bytes.flatMap (fun b => (List.range 8).map fun k => b.getMsbD k) ++ cut) = .transactionCut bytes) ∧
  ∀ (s : State) (hselLow : Bool) (response : Option (List Byte)) (command bit : Nat),
    ((hselLow = false ∨ s.heldInReset = true) → s.hdo hselLow response command bit = none) ∧
    (hselLow = true → s.heldInReset = false →
      (bit / 8 < command → s.hdo hselLow response command bit = some true) ∧
      (∀ bytes b, response = some bytes → command ≤ bit / 8 → bytes[bit / 8 - command]? = some b →
        s.hdo hselLow response command bit = some (b.getMsbD (bit % 8))) ∧
      (∀ bytes, response = some bytes → command + bytes.length ≤ bit / 8 →
        s.hdo hselLow response command bit = some true) ∧
      (response = none → s.hdo hselLow response command bit = some true))

/-! ### CONFIGURE, JOIN and LEAVE -/

/-- CONFIGURE makes its checks in their order, and a refused one changes nothing. An accepted one records bus use, B, L and W,
computes the digest, restarts every accumulator, and makes the station CONFIGURED with its table as it was, or SOLO with its own
entry known and not waiting; the two MAP_LOADs of a fresh die then hold 4 CU and have begun. -/
def Obligations.ConfigureSetsTheStation : Prop :=
  ∀ (s : State) (u b l w : Byte), s.ready = true →
    let refused := fun code : Byte =>
      exec (.configure [u, b, l, w]) s = .next { s with link := { s.link with response := [code] } }
    let fits := u.toNat ≤ 1 ∧ 6 ≤ b.toNat ∧ b.toNat ≤ 240 ∧ 1 ≤ l.toNat ∧ l.toNat ≤ 16
    (s.ctl.station ≠ .unconfigured → refused 0x09#8) ∧
    (s.ctl.station = .unconfigured → ¬ fits → refused 0x04#8) ∧
    (s.ctl.station = .unconfigured → fits →
      ∃ t, exec (.configure [u, b, l, w]) s = .next t ∧
        t.ctl.settings = some ⟨if u = 0#8 then .shared else .solo, b.toNat, l.toNat, w.toNat⟩ ∧
        t.ctl.digest.toNat = (b.toNat + 37 * l.toNat) % 256 ∧
        t.ctl.station = (if u = 0#8 then .configured else .solo) ∧
        (∀ k, ∀ sl ∈ (t.bank k).queue, (sl.state = .waiting ∨ sl.state = .held) → sl.waitTime = 0) ∧
        (u = 0#8 → t.ctl.table = s.ctl.table ∧ t.ctl.transmit = s.ctl.transmit) ∧
        (u ≠ 0#8 → t.ctl.own.known = true ∧ t.ctl.own.waiting = none ∧
          ∀ k, k ≠ s.ctl.id → t.ctl.table.entry k = s.ctl.table.entry k) ∧
        (u ≠ 0#8 → s.port.sending = none →
          (∃ x y, s.bank0.internal = some ⟨.mapLoad x, false⟩ ∧ s.bank1.internal = some ⟨.mapLoad y, false⟩) →
          t.holding = 4 ∧ t.bank0.step = some (.sense .mapScan) ∧ t.bank1.step = some (.sense .mapScan)) ∧
        (∀ k, ((s.bank k).isRunning = true ∨ (t.bank k).isRunning = false) → (t.bank k).array = (s.bank k).array) ∧
        (∃ more, t.completions = s.completions ++ more) ∧
        t.ctl.id = s.ctl.id ∧ t.ctl.nonce = s.ctl.nonce ∧ t.ctl.renewal = s.ctl.renewal ∧ t.ctl.lapsed = s.ctl.lapsed ∧
        t.ctl.window = s.ctl.window ∧ t.ctl.diverged = s.ctl.diverged ∧ t.port = s.port ∧
        t.link = { s.link with response := [0x00#8] } ∧ t.inReset = s.inReset ∧ t.fresh = s.fresh ∧
        t.pending = s.pending)

/-- JOIN in CONFIGURED, RX_FAULT or TX_FAULT clears the table, queues HELLO alone, brings the port on the bus with its runs at
0 and makes the station LEARNING with its gate closed; that the renewal timer stops and that LAPSED, the hold-off and the window
are cleared is the model's reading (log entry 35). In every other state it is answered WRONG_STATE, and with parameters
BAD_LENGTH. -/
def Obligations.JoinStartsLearning : Prop :=
  ∀ s : State, s.ready = true →
    ((s.ctl.station = .configured ∨ s.ctl.station = .rxFault ∨ s.ctl.station = .txFault) →
      exec (.join []) s = .next { s with
        ctl := { s.ctl with
          station := .learning
          table := Vector.replicate 16 ⟨false, 0, none, 0#4, 0, none⟩
          transmit := ⟨true, false, false, false, false, Vector.replicate 16 none⟩
          renewal := none, lapsed := false, holdOff := none, window := none }
        port := { s.port with
          framing := .outOfFrame, recessiveCount := 0, sending := none, rejectionRun := 0, rejectRun := 0 }
        link := { s.link with response := [0x00#8] } }) ∧
    (s.ctl.station ≠ .configured → s.ctl.station ≠ .rxFault → s.ctl.station ≠ .txFault →
      exec (.join []) s = .next { s with link := { s.link with response := [0x09#8] } }) ∧
    (∀ params, params ≠ [] →
      exec (.join params) s = .next { s with link := { s.link with response := [0x02#8] } }) ∧
    (s.ctl.station = .learning → ∀ b, s.gateAdmits b = false)

/-- LEAVE with parameters is answered BAD_LENGTH, and otherwise by the four rows of its table: WRONG_STATE outside IN_SERVICE
or with work in the die, CONFIGURED at once where the own entry has nothing to give back, with the transmit set emptied and the
port off the bus, and otherwise LEAVING with RELEASE for what it holds, in the place of a pending RENEW, and WITHDRAW for what
it waits for. -/
def Obligations.LeaveGivesBackOrGoes : Prop :=
  ∀ s : State, s.ready = true →
    (∀ params, params ≠ [] →
      exec (.leave params) s = .next { s with link := { s.link with response := [0x02#8] } }) ∧
    ((s.ctl.station ≠ .inService ∨ s.bank0.queue ≠ [] ∨ s.bank1.queue ≠ [] ∨ s.bank0.internal ≠ none ∨
        s.bank1.internal ≠ none) →
      exec (.leave []) s = .next { s with link := { s.link with response := [0x09#8] } }) ∧
    (s.ctl.station = .inService → s.bank0.queue = [] → s.bank1.queue = [] → s.bank0.internal = none →
        s.bank1.internal = none →
      (s.ctl.own.held = 0 → s.ctl.own.waiting = none →
        exec (.leave []) s = .next { s with
          ctl := { s.ctl with
            station := .configured
            transmit := ⟨false, false, false, false, false, Vector.replicate 16 none⟩
            lapsed := false, holdOff := none }
          port := { s.port with framing := .outOfFrame, sending := none }
          link := { s.link with response := [0x00#8] } }) ∧
      ((0 < s.ctl.own.held ∨ s.ctl.own.waiting ≠ none) →
        exec (.leave []) s = .next { s with
          ctl := { s.ctl with
            station := .leaving
            transmit := {
              hello := false, claim := false, evict := Vector.replicate 16 none
              release := s.ctl.transmit.release || decide (0 < s.ctl.own.held)
              renew := s.ctl.transmit.renew && decide (s.ctl.own.held = 0)
              withdraw := s.ctl.transmit.withdraw || s.ctl.own.waiting.isSome }
            holdOff := none }
          link := { s.link with response := [0x00#8] } }))

/-! ### The operation table -/

/-- The four posts read their parameters as the Formats chapter lays them out: tag, bank, block, and where the kind has them word
line, position or suspendable; a field out of range gives no target. A post of a wrong length is answered BAD_LENGTH, and
one that fails another check with the refusal of the first that fails; a refused post changes nothing. -/
def Obligations.PostsAreReadAndCheckedInOrder : Prop :=
  (∀ (tag bank hi lo w p : Byte),
    let target := fun op : HostOp =>
      if bank.toNat ≤ 1 ∧ hi.toNat * 256 + lo.toNat ≤ 2045 then
        some ((if bank = 0#8 then BankId.zero else BankId.one), hi.toNat * 256 + lo.toNat, op)
      else none
    postOf (.postRead [tag, bank, hi, lo, w, p]) = some (some ⟨tag,
      if w.toNat ≤ 63 ∧ p.toNat ≤ 2 then
        target (.read w.toNat (if p = 0#8 then .low else if p = 1#8 then .middle else .high))
      else none⟩) ∧
    postOf (.postProgram [tag, bank, hi, lo, w]) = some (some ⟨tag,
      if w.toNat ≤ 63 then target (.program w.toNat) else none⟩) ∧
    postOf (.postFinish [tag, bank, hi, lo]) = some (some ⟨tag, target .finish⟩) ∧
    postOf (.postErase [tag, bank, hi, lo, w]) = some (some ⟨tag, target (.erase (decide (w ≠ 0#8)))⟩)) ∧
  ∀ (c : Instr) (s : State), s.ready = true →
    let refused := fun code : Byte => exec c s = .next { s with link := { s.link with response := [code] } }
    (postOf c = some none → refused 0x02#8) ∧
    (∀ p, postOf c = some (some p) →
      (p.target = none → refused 0x03#8) ∧
      (∀ b block op, p.target = some (b, block, op) →
        (p.tag ∈ s.tagsInUse → refused 0x05#8) ∧
        (p.tag ∉ s.tagsInUse → 8 ≤ s.slotsInUse → refused 0x07#8) ∧
        (p.tag ∉ s.tagsInUse → s.slotsInUse < 8 → 6 ≤ (s.bank b).queue.length → refused 0x08#8)))

/-- A post that passes its checks is answered ACCEPTED: its operation joins the tail of the addressed bank's queue, and what
follows in the same change is settled. Its slot joins the slots in use and its tag the tags in use; where the bank's front is
running the operation stands QUEUED at the tail, and in an idle bank it has passed its start point. At its start point a head
operation is checked in order, RETIRED, MAP_LOST, then for a PROGRAM OPEN_BLOCK_BUSY and ORDER_ERROR at word line 0, NOT_OPEN
and ORDER_ERROR above it, STAGING_INCOMPLETE, and for a FINISH NOT_OPEN; the first that fails ends it there, and otherwise it
is WAITING, a READ on the pending path where the pending slot names its word line, else on the sensing path. -/
def Obligations.PostAppendsItsOperation : Prop :=
  (∀ (c : Instr) (p : Post) (s : State) (b : BankId) (block : Nat) (op : HostOp),
    postOf c = some (some p) → p.target = some (b, block, op) → s.ready = true → s.tableSound = true →
    p.tag ∉ s.tagsInUse → s.slotsInUse < 8 → (s.bank b).queue.length < 6 →
    let posted : Slot := ⟨p.tag, op, b, block, .queued, false, 0, 0, 0, false, false, none, none⟩
    let queued := s.setBank b { s.bank b with queue := (s.bank b).queue ++ [posted] }
    ∃ t, exec c s = .next t ∧ t = { queued.settle with link := { s.link with response := [0x00#8] } } ∧
      t.slotsInUse = s.slotsInUse + 1 ∧ List.Perm t.tagsInUse (p.tag :: s.tagsInUse) ∧
      (s.coherent = true → (s.bank b).isRunning = true → (t.bank b).queue = (s.bank b).queue ++ [posted]) ∧
      ((s.bank b).queue = [] → (s.bank b).internal = none →
        ∀ sl ∈ (t.bank b).queue, sl.tag = p.tag → sl.state ≠ .queued) ∧
      (∃ more, t.completions = s.completions ++ more) ∧
      (∀ k, ((s.bank k).isRunning = true ∨ (t.bank k).isRunning = false) → (t.bank k).array = (s.bank k).array)) ∧
  ∀ (bk : Bank) (sl : Slot) (behind : List Slot),
    bk.internal = none → bk.queue = sl :: behind → sl.state = .queued →
    let ends := fun o : OpOutcome => bk.advanceStep =
      some ⟨{ bk with queue := bk.queue.filter fun x => x.tag != sl.tag }, [sl.finish o noFlags]⟩
    let waits := fun path : Option ReadPath => bk.advanceStep =
      some ⟨{ bk with queue := bk.queue.map fun x =>
        if x.tag = sl.tag then { x with state := .waiting, waitTime := 0, path := path } else x }, []⟩
    let retired := ∃ e ∈ bk.retired, e.block = sl.block
    let loaded := bk.staging.low.loaded = true ∧ bk.staging.middle.loaded = true ∧ bk.staging.high.loaded = true
    let programs := fun w : Nat => sl.op = .program w ∧ ¬ retired ∧ bk.mapState ≠ .lost
    (∀ w p, sl.op = .read w p → (∀ x ∈ behind, x.tag ≠ sl.tag) →
      ((∃ pages, bk.pendingSlot = some ⟨sl.block, w, pages⟩) → waits (some .pending)) ∧
      ((∀ pages, bk.pendingSlot ≠ some ⟨sl.block, w, pages⟩) → waits (some .sensing))) ∧
    (sl.isRead = false → retired → ends .retired) ∧
    (sl.isRead = false → ¬ retired → bk.mapState = .lost → ends .mapLost) ∧
    (programs 0 → ∀ r, bk.openBlock = some r → r.block ≠ sl.block → ends .openBlockBusy) ∧
    (programs 0 → ∀ r, bk.openBlock = some r → r.block = sl.block → ends .orderError) ∧
    (∀ w, 1 ≤ w → programs w → (∀ r, bk.openBlock = some r → r.block ≠ sl.block) → ends .notOpen) ∧
    (∀ w, 1 ≤ w → programs w → ∀ r, bk.openBlock = some r → r.block = sl.block → r.next ≠ w → ends .orderError) ∧
    (∀ w, programs w → (w = 0 ∧ bk.openBlock = none ∨ 1 ≤ w ∧ bk.openBlock = some ⟨sl.block, w⟩) →
      (¬ loaded → ends .stagingIncomplete) ∧ (loaded → (∀ x ∈ behind, x.tag ≠ sl.tag) → waits none)) ∧
    (sl.op = .finish → ¬ retired → bk.mapState ≠ .lost →
      ((∀ r, bk.openBlock = some r → r.block ≠ sl.block) → ends .notOpen) ∧
      (∀ r, bk.openBlock = some r → r.block = sl.block → (∀ x ∈ behind, x.tag ≠ sl.tag) → waits none)) ∧
    (∀ e, sl.op = .erase e → ¬ retired → bk.mapState ≠ .lost → (∀ x ∈ behind, x.tag ≠ sl.tag) → waits none)

/-- ABORT acts by the state of the slot that holds the tag: it ends an operation that has no step under way at once with
ABORTED, sets the stop request of a RUNNING one and nothing else, is answered ALREADY_DONE for a RECORDING or DONE slot and
NO_SUCH_TAG where no slot holds the tag. What ends leaves its queue and what follows is settled: a HELD PROGRAM or FINISH that
has pulsed loses latch, record and pending slot, a READ in OUTPUT_WAIT its sense latch, and behind a SUSPENDED ERASE the READ
taken to run becomes the head (its place in the queue: log entry 10). -/
def Obligations.AbortActsByTheSlotsState : Prop :=
  ∀ (s : State) (tag : Byte), s.ready = true → s.tableSound = true →
    (∀ b sl, sl ∈ (s.bank b).queue → sl.tag = tag →
      (sl.state = .running →
        exec (.abort [tag]) s = .next { s.setBank b { s.bank b with
            queue := (s.bank b).queue.map fun x => if x.tag = tag then { x with stopRequest := true } else x } with
          link := { s.link with response := [0x00#8] } }) ∧
      (sl.state = .recording →
        exec (.abort [tag]) s = .next { s with link := { s.link with response := [0x0B#8] } }) ∧
      (sl.state ≠ .running → sl.state ≠ .recording →
        let rest := (s.bank b).queue.filter fun x => x.tag != tag
        let ends := fun bk : Bank => exec (.abort [tag]) s = .next
          { (State.settle { s.setBank b bk with completions := s.completions ++ [sl.finish .aborted noFlags] }) with
            link := { s.link with response := [0x00#8] } }
        let writes := ((∃ w, sl.op = .program w) ∨ sl.op = .finish) ∧ sl.arrayTouched = true
        let taken := fun x : Slot => x.state = .waiting ∨ x.state = .running
        ((sl.state = .queued ∨ sl.state = .waiting ∨ (sl.state = .held ∧ ¬ writes)) →
          ends { s.bank b with queue := rest }) ∧
        (sl.state = .held → writes → ends { s.bank b with
          openBlock := none, pendingSlot := none, latch := none, pass := none, passPulses := 0, queue := rest }) ∧
        (sl.state = .outputWait → ends { s.bank b with senseLatch := none, queue := rest }) ∧
        (sl.state = .suspended →
          ((∀ x ∈ rest, ¬ taken x) → ends { s.bank b with queue := rest }) ∧
          (∀ before r after, rest = before ++ r :: after → taken r → (∀ x ∈ before, ¬ taken x) →
            ends { s.bank b with queue := r :: (before ++ after) })) ∧
        ∃ t more, exec (.abort [tag]) s = .next t ∧
          t.completions = s.completions ++ (sl.finish .aborted noFlags :: more) ∧
          (∀ k, ∀ x ∈ (t.bank k).queue, x.tag ≠ tag) ∧ t.port = s.port ∧
          t.ctl.station = s.ctl.station ∧ t.ctl.settings = s.ctl.settings ∧ t.inReset = s.inReset ∧
          t.pending = s.pending ∧
          t.link = { s.link with response := [0x00#8] } ∧
          (∀ k, ((s.bank k).isRunning = true ∨ (t.bank k).isRunning = false) →
            (t.bank k).array = (s.bank k).array))) ∧
    ((∃ d ∈ s.completions, d.slot.tag = tag) →
      exec (.abort [tag]) s = .next { s with link := { s.link with response := [0x0B#8] } }) ∧
    (tag ∉ s.tagsInUse →
      exec (.abort [tag]) s = .next { s with link := { s.link with response := [0x06#8] } })

/-- TAKE_COMPLETIONS with a count from 1 to 8 removes the oldest records, at most so many, and returns their number and their
13 bytes each, oldest first; any other count is answered BAD_VALUE, a wrong length BAD_LENGTH, and neither changes anything.
The 13 bytes stand as the Formats chapter lays them out, with its codes and its values for what is absent. An operation that
ends becomes DONE with a record of its slot: tag, kind, bank, block, failed pass and word line, pulses, suspensions,
BUDGET_WAITED and ARRAY_TOUCHED as the slot holds them, the outcome, and the four other flags as the ending sets them. -/
def Obligations.TakeCompletionsReturnsTheOldestRecords : Prop :=
  ∀ (s : State) (n : Byte), s.ready = true →
    (∀ params, params.length ≠ 1 →
      exec (.takeCompletions params) s = .next { s with link := { s.link with response := [0x02#8] } }) ∧
    ((n.toNat = 0 ∨ 8 < n.toNat) →
      exec (.takeCompletions [n]) s = .next { s with link := { s.link with response := [0x04#8] } }) ∧
    (1 ≤ n.toNat → n.toNat ≤ 8 →
      ∃ taken rest, s.completions = taken ++ rest ∧ taken.length = min n.toNat s.completions.length ∧
        exec (.takeCompletions [n]) s = .next { s with
          completions := rest
          link := { s.link with
            response := 0x00#8 :: BitVec.ofNat 8 taken.length :: (taken.map fun d => d.record.bytes).flatten } } ∧
        (∀ d ∈ taken, d.record.bytes.length = 13) ∧
        (s.tableSound = true → ∀ d ∈ taken, ∀ t, exec (.takeCompletions [n]) s = .next t → d.slot.tag ∉ t.tagsInUse)) ∧
    (∀ r : Completion, r.bytes = [
      r.tag,
      (match r.op with | .read _ _ => 1#8 | .program _ => 2#8 | .finish => 3#8 | .erase _ => 4#8),
      (match r.bank with | .zero => 0#8 | .one => 1#8),
      BitVec.ofNat 8 (r.block / 256), BitVec.ofNat 8 r.block,
      (match r.op with | .read w _ => BitVec.ofNat 8 w | .program w => BitVec.ofNat 8 w | .finish => 0xFF#8 | .erase _ => 0xFF#8),
      (match r.op with
        | .read _ .low => 0#8 | .read _ .middle => 1#8 | .read _ .high => 2#8
        | .program _ => 0xFF#8 | .finish => 0xFF#8 | .erase _ => 0xFF#8),
      (match r.outcome with
        | .ok => 0x00#8 | .erasedPage => 0x01#8 | .coarseOnly => 0x02#8 | .torn => 0x03#8 | .programFail => 0x04#8
        | .eraseFail => 0x05#8 | .retired => 0x06#8 | .notErased => 0x07#8 | .notOpen => 0x08#8 | .orderError => 0x09#8
        | .openBlockBusy => 0x0A#8 | .stagingIncomplete => 0x0B#8 | .mapLost => 0x0C#8 | .budgetTimeout => 0x0D#8
        | .aborted => 0x0E#8),
      (match r.failedPass with | some .coarse => 1#8 | some .fine => 2#8 | none => 0#8),
      (match r.failedWordLine with | some w => BitVec.ofNat 8 w | none => 0xFF#8),
      BitVec.ofNat 8 r.pulses,
      (match r.op with | .erase _ => BitVec.ofNat 8 r.suspensions | .read _ _ => 0xFF#8 | .program _ => 0xFF#8 | .finish => 0xFF#8),
      (if r.flags.fromPending then 1#8 else 0#8) ||| (if r.flags.mapWritten then 2#8 else 0#8) |||
        (if r.flags.listFull then 4#8 else 0#8) ||| (if r.flags.mapDegraded then 8#8 else 0#8) |||
        (if r.flags.budgetWaited then 16#8 else 0#8) ||| (if r.flags.arrayTouched then 32#8 else 0#8)]) ∧
    (∀ (sl : Slot) (outcome : OpOutcome) (f : RecordFlags), sl.finish outcome f =
      ⟨{ sl with state := .done, stopRequest := false },
        { tag := sl.tag, op := sl.op, bank := sl.bank, block := sl.block, outcome := outcome
          failedPass := (match sl.failure with | none => none | some x => x.failedPass)
          failedWordLine := (match sl.failure with | none => none | some x => x.failedWordLine)
          pulses := sl.pulses, suspensions := sl.suspensions
          flags := { f with budgetWaited := sl.budgetWaited, arrayTouched := sl.arrayTouched } }⟩) ∧
    (noFlags = ⟨false, false, false, false, false, false⟩ ∧ fromPendingFlag = { noFlags with fromPending := true } ∧
      mapWrittenFlag = { noFlags with mapWritten := true } ∧ mapDegradedFlag = { noFlags with mapDegraded := true } ∧
      ∀ d, listFullFlag d = { noFlags with listFull := true, mapDegraded := d })

/-! ### Page data -/

/-- LOAD_STAGING makes its checks in their order, and a refused one changes nothing. Otherwise it writes its bytes into the
addressed staging slot at offset and upward, keeps the bytes at other offsets, marks the slot loaded and changes nothing else.
-/
def Obligations.LoadStagingWritesItsBytes : Prop :=
  ∀ (s : State) (params : List Byte), s.ready = true →
    let run := exec (.loadStaging params) s
    let refused := fun code : Byte => run = .next { s with link := { s.link with response := [code] } }
    (params.length < 6 → refused 0x02#8) ∧
    (∀ bank pos o1 o0 l1 l0 data, params = bank :: pos :: o1 :: o0 :: l1 :: l0 :: data →
      let offset := o1.toNat * 256 + o0.toNat
      let fits := 1 ≤ data.length ∧ data.length ≤ 512 ∧ offset + data.length ≤ 4416
      (data.length ≠ l1.toNat * 256 + l0.toNat → refused 0x02#8) ∧
      (data.length = l1.toNat * 256 + l0.toNat →
        ((1 < bank.toNat ∨ 2 < pos.toNat) → refused 0x03#8) ∧
        (bank.toNat ≤ 1 → pos.toNat ≤ 2 → ¬ fits → refused 0x04#8) ∧
        (∀ b p, bankOf bank = some b → positionOf pos = some p → fits →
          ∃ page, run = .next { s.setBank b { s.bank b with staging := (s.bank b).staging.set p ⟨true, page⟩ } with
              link := { s.link with response := [0x00#8] } } ∧
            (Store.wf blankByte ((s.bank b).staging.get p).page = true →
              (∀ (i : Nat) (h : i < data.length), pageByte page (offset + i) = data[i]) ∧
              (∀ a, (a < offset ∨ offset + data.length ≤ a) →
                pageByte page a = pageByte ((s.bank b).staging.get p).page a)))))

/-- FETCH_OUTPUT returns the holder tag and the bytes at its offsets and changes nothing but the response; its checks are made
in their order. -/
def Obligations.FetchOutputReturnsTheBuffersBytes : Prop :=
  ∀ (s : State) (bank o1 o0 l1 l0 : Byte), s.ready = true →
    let offset := o1.toNat * 256 + o0.toNat
    let length := l1.toNat * 256 + l0.toNat
    let fits := 1 ≤ length ∧ length ≤ 512 ∧ offset + length ≤ 4416
    let answered := fun r : List Byte =>
      exec (.fetchOutput [bank, o1, o0, l1, l0]) s = .next { s with link := { s.link with response := r } }
    (∀ params, params.length ≠ 5 →
      exec (.fetchOutput params) s = .next { s with link := { s.link with response := [0x02#8] } }) ∧
    (1 < bank.toNat → answered [0x03#8]) ∧
    (∀ b, bankOf bank = some b →
      (¬ fits → answered [0x04#8]) ∧
      (fits → (s.bank b).output.holder = none → answered [0x0A#8]) ∧
      (∀ tag, fits → (s.bank b).output.holder = some tag →
        answered (0x00#8 :: tag :: (List.range length).map fun i => pageByte (s.bank b).output.page (offset + i))))

/-- RELEASE_OUTPUT is answered BAD_LENGTH, BAD_ADDRESS, or for a free buffer OUTPUT_EMPTY, and then changes nothing. Of a held
buffer it is answered ACCEPTED: the buffer becomes free and what follows is settled. A READ in OUTPUT_WAIT at the head, or a
pending-path READ WAITING there, completes into the buffer at once under its own tag. Where no READ waits for it the buffer
stays free with its bytes as they were: with an internal operation ahead, with an empty queue, with a head that is RUNNING,
HELD, RECORDING or WAITING on no pending path, and in a coherent state wherever no READ of the bank stands in OUTPUT_WAIT or
WAITING on the pending path. -/
def Obligations.ReleaseOutputFreesOrRefillsTheBuffer : Prop :=
  ∀ (s : State) (bank : Byte), s.ready = true →
    let refused := fun code : Byte =>
      exec (.releaseOutput [bank]) s = .next { s with link := { s.link with response := [code] } }
    (∀ params, params.length ≠ 1 →
      exec (.releaseOutput params) s = .next { s with link := { s.link with response := [0x02#8] } }) ∧
    (1 < bank.toNat → refused 0x03#8) ∧
    (∀ b, bankOf bank = some b →
      ((s.bank b).output.holder = none → refused 0x0A#8) ∧
      ((s.bank b).output.holder ≠ none →
        let freed := s.setBank b { s.bank b with output := ⟨none, (s.bank b).output.page⟩ }
        ∃ t, exec (.releaseOutput [bank]) s = .next t ∧
          t = { freed.settle with link := { s.link with response := [0x00#8] } } ∧
          (∃ more, t.completions = s.completions ++ more) ∧
          (∀ sl behind r, (s.bank b).internal = none → (s.bank b).queue = sl :: behind → sl.state = .outputWait →
            (s.bank b).senseLatch = some r →
            (t.bank b).output = ⟨some sl.tag, r.page⟩ ∧ sl.finish r.outcome noFlags ∈ t.completions) ∧
          (∀ sl behind w p ps, (s.bank b).internal = none → (s.bank b).queue = sl :: behind → sl.state = .waiting →
            sl.op = .read w p → sl.path = some .pending → (s.bank b).pendingSlot = some ps →
            (t.bank b).output = ⟨some sl.tag, ps.pages.get p⟩ ∧ sl.finish .ok fromPendingFlag ∈ t.completions) ∧
          (let stays := (t.bank b).output = ⟨none, (s.bank b).output.page⟩;
            ((s.bank b).internal ≠ none → stays) ∧ ((s.bank b).queue = [] → stays) ∧
            (∀ sl behind, (s.bank b).queue = sl :: behind →
              (sl.state = .running ∨ sl.state = .held ∨ sl.state = .recording ∨
                (sl.state = .waiting ∧ sl.path ≠ some .pending)) → stays) ∧
            (s.coherent = true →
              (∀ sl ∈ (s.bank b).queue, sl.state ≠ .outputWait ∧ ¬ (sl.state = .waiting ∧ sl.path = some .pending)) →
              stays)) ∧
          (∀ k, ((s.bank k).isRunning = true ∨ (t.bank k).isRunning = false) → (t.bank k).array = (s.bank k).array)))

/-! ### The views -/

/-- READ_STATUS returns ACCEPTED and the 33 bytes of the status view as the state stood, clears the four news flags and
DIVERGED, and changes nothing else. ATTN_N is asserted exactly while a record waits or a news flag is set, out of reset; taking
every record releases it where no flag is set, and READ_STATUS where no record waits. The 33 bytes stand as the Formats chapter
lays them out: the station, its configuration and indicators, H, N and wait level, reservations, runs, counts, a part of 7
bytes for each bank, and the news flags. -/
def Obligations.ReadStatusReturnsTheViewAndClearsTheNews : Prop :=
  ∀ s : State,
    (s.ready = true →
      exec (.readStatus []) s = .next { s with
        ctl := { s.ctl with diverged := false }
        link := { s.link with
          stationNews := false, divergedNews := false, mapNews0 := false, mapNews1 := false
          response := 0x00#8 :: s.statusView } }) ∧
    s.statusView.length = 33 ∧
    (let part := fun bk : Bank => [
        (match bk.internal with
          | none => 0#8 | some ⟨.mapLoad _, _⟩ => 1#8 | some ⟨.mapUpdate _, _⟩ => 2#8
          | some ⟨.rewriteErase _, _⟩ => 3#8 | some ⟨.rewritePage _ _, _⟩ => 3#8),
        (match bk.mapState with | .loading => 0#8 | .loaded => 1#8 | .lost => 2#8 | .degraded => 3#8),
        (if bk.openBlock = none then 0#8 else 1#8) ||| (if bk.staging.low.loaded then 2#8 else 0#8) |||
          (if bk.staging.middle.loaded then 4#8 else 0#8) ||| (if bk.staging.high.loaded then 8#8 else 0#8) |||
          (if bk.output.holder = none then 0#8 else 16#8),
        (match bk.openBlock with | none => 0xFF#8 | some r => BitVec.ofNat 8 (r.block / 256)),
        (match bk.openBlock with | none => 0xFF#8 | some r => BitVec.ofNat 8 r.block),
        (match bk.openBlock with | none => 0xFF#8 | some r => BitVec.ofNat 8 r.next),
        (match bk.output.holder with | none => 0#8 | some tag => tag)];
      s.statusView = [
        (match s.ctl.station with
          | .unconfigured => 0#8 | .configured => 1#8 | .solo => 2#8 | .learning => 3#8 | .inService => 4#8
          | .leaving => 5#8 | .idConflict => 6#8 | .configMismatch => 7#8 | .rxFault => 8#8 | .txFault => 9#8),
        BitVec.ofNat 8 s.ctl.id.toNat,
        (match s.ctl.settings with
          | none => 0#8
          | some g => match g.busUse with | .shared => 0#8 | .solo => 1#8),
        (match s.ctl.settings with | none => 0#8 | some g => BitVec.ofNat 8 g.budget),
        (match s.ctl.settings with | none => 0#8 | some g => BitVec.ofNat 8 g.lease),
        (match s.ctl.settings with | none => 0#8 | some g => BitVec.ofNat 8 g.waitLimit),
        (if s.ctl.lapsed then 1#8 else 0#8) ||| (if s.ctl.diverged then 2#8 else 0#8) |||
          (if s.ctl.window = none then 0#8 else 4#8) ||| (if s.port.stuck then 8#8 else 0#8),
        BitVec.ofNat 8 s.ctl.own.held, BitVec.ofNat 8 (s.bank0.reservation + s.bank1.reservation),
        (match s.ctl.own.waiting with | none => 0#8 | some w => BitVec.ofNat 8 w.level),
        BitVec.ofNat 8 s.bank0.reservation, BitVec.ofNat 8 s.bank1.reservation,
        BitVec.ofNat 8 s.port.rejectionRun, BitVec.ofNat 8 s.port.rejectRun,
        BitVec.ofNat 8 s.slotsInUse, BitVec.ofNat 8 s.completions.length,
        BitVec.ofNat 8 s.bank0.queue.length, BitVec.ofNat 8 s.bank1.queue.length] ++ part s.bank0 ++ part s.bank1 ++
        [(if s.link.stationNews then 1#8 else 0#8) ||| (if s.link.divergedNews then 2#8 else 0#8) |||
          (if s.link.mapNews0 then 4#8 else 0#8) ||| (if s.link.mapNews1 then 8#8 else 0#8)]) ∧
    s.slotsInUse = s.bank0.queue.length + s.bank1.queue.length + s.completions.length ∧
    (s.attentionAsserted = true ↔ s.heldInReset = false ∧
      (s.completions ≠ [] ∨ s.link.stationNews = true ∨ s.link.divergedNews = true ∨ s.link.mapNews0 = true ∨
        s.link.mapNews1 = true)) ∧
    (s.ready = true → s.completions.length ≤ 8 → s.link.anyNews = false →
      ∃ t, exec (.takeCompletions [8#8]) s = .next t ∧ t.attentionAsserted = false) ∧
    (s.ready = true → s.completions = [] → ∃ t, exec (.readStatus []) s = .next t ∧ t.attentionAsserted = false)

/-- READ_BUDGET_TABLE and READ_RETIRED return their views and change nothing but the response: 134 bytes with the own id, the
station state, B, the table total, the precedent waiter and the sixteen entries of 8 bytes each, laid out field by field, and 9
bytes of the map unit's fields with 3 more for each entry of the retired list, its block and cause; a bank out of range is
answered BAD_ADDRESS. -/
def Obligations.ReadViewsChangeNothing : Prop :=
  ∀ (s : State) (bank : Byte), s.ready = true →
    exec (.readBudgetTable []) s = .next { s with link := { s.link with response := 0x00#8 :: s.budgetView } } ∧
    s.budgetView.length = 134 ∧
    (let total : Nat := (stationIds.map fun k => (s.ctl.table.entry k).held).sum;
      s.budgetView.take 6 = [
        BitVec.ofNat 8 s.ctl.id.toNat,
        (match s.ctl.station with
          | .unconfigured => 0#8 | .configured => 1#8 | .solo => 2#8 | .learning => 3#8 | .inService => 4#8
          | .leaving => 5#8 | .idConflict => 6#8 | .configMismatch => 7#8 | .rxFault => 8#8 | .txFault => 9#8),
        (match s.ctl.settings with | none => 0#8 | some g => BitVec.ofNat 8 g.budget),
        BitVec.ofNat 8 (total / 256), BitVec.ofNat 8 total,
        (match precedentWaiter s.ctl.table with | none => 0xFF#8 | some k => BitVec.ofNat 8 k.toNat)]) ∧
    (∀ k : StationId,
      let e := s.ctl.table.entry k
      (s.budgetView.drop (6 + 8 * k.toNat)).take 8 = [
        (if e.known then 1#8 else 0#8) ||| (if e.waiting = none then 0#8 else 2#8) |||
          (if e.nonce = none then 0#8 else 4#8),
        BitVec.ofNat 8 e.held,
        (match e.waiting with | none => 0#8 | some w => BitVec.ofNat 8 w.requested),
        (match e.waiting with | none => 0#8 | some w => BitVec.ofNat 8 w.level),
        BitVec.ofNat 8 e.generation.toNat,
        (match e.nonce with | none => 0#8 | some n => n.extractLsb' 8 8),
        (match e.nonce with | none => 0#8 | some n => n.extractLsb' 0 8),
        BitVec.ofNat 8 (min 255 e.age)]) ∧
    (1 < bank.toNat →
      exec (.readRetired [bank]) s = .next { s with link := { s.link with response := [0x03#8] } }) ∧
    (∀ b, bankOf bank = some b →
      let bk := s.bank b
      exec (.readRetired [bank]) s = .next { s with link := { s.link with response := 0x00#8 :: bk.retiredView } } ∧
      bk.retiredView.take 9 = [
        (match bk.mapState with | .loading => 0#8 | .loaded => 1#8 | .lost => 2#8 | .degraded => 3#8),
        (match bk.mapBlock with | none => 0#8 | some .a => 1#8 | some .b => 2#8), BitVec.ofNat 8 bk.nextMapPage,
        bk.mapSeq.extractLsb' 24 8, bk.mapSeq.extractLsb' 16 8, bk.mapSeq.extractLsb' 8 8, bk.mapSeq.extractLsb' 0 8,
        BitVec.ofNat 8 bk.mapFailureRun, BitVec.ofNat 8 bk.retired.length] ∧
      (∀ (i : Nat) (e : RetiredEntry), bk.retired[i]? = some e → (bk.retiredView.drop (9 + 3 * i)).take 3 =
        [BitVec.ofNat 8 (e.block / 256), BitVec.ofNat 8 e.block,
          (match e.cause with | .factory => 1#8 | .programFail => 2#8 | .eraseFail => 3#8)]) ∧
      bk.retiredView.length = 9 + 3 * bk.retired.length)

/-! ### Die reset -/

/-- DIE_RESET is answered ACCEPTED in every station state and changes nothing else at once. A source that begins puts the die
in reset, held by that source besides those that hold it already: both banks' steps are cut, the port is off the bus line, the
transaction in progress is abandoned with its response (log entry 32), and everything else stands until the reset ends (log
entry 34); a bank whose first erase pulse is not under way keeps its array, and one whose first erase pulse is cut keeps every
other block and its erase-complete marks. The DIE_RESET source is refused unless the command has been taken (log entry 3). -/
def Obligations.DieResetIsAnsweredThenCutsTheSteps : Prop :=
  ∀ (s : State) (source : ResetSource),
    (s.ready = true →
      exec (.dieReset []) s = .next { s with link := { s.link with response := [0x00#8], resetTaken := true } }) ∧
    (source = .command → s.link.resetTaken = false →
      exec (.dieResetBegin source) s = .refused .resetSourceAbsent) ∧
    ((source = .command → s.link.resetTaken = true) →
      ∃ t, exec (.dieResetBegin source) s = .next t ∧ t.heldInReset = true ∧ t.attentionAsserted = false ∧
        t.inReset = (match source with
          | .powerOn => { s.inReset with powerOn := true }
          | .pin => { s.inReset with pin := true }
          | .command => { s.inReset with command := true }) ∧
        t.port = { s.port with framing := .outOfFrame, sending := none } ∧
        t.link = { s.link with response := [], resetTaken := false } ∧ t.ctl = s.ctl ∧
        t.completions = s.completions ∧ t.pending = s.pending ∧
        ∀ b, ∃ a, t.bank b = { s.bank b with step := none, array := a } ∧
          ((s.bank b).erasePulseCut = none → a = (s.bank b).array) ∧
          (∀ block, (s.bank b).erasePulseCut = some block →
            a.eraseMarks = (s.bank b).array.eraseMarks ∧
            ((s.bank b).array.canonical = true → ∀ other w p, other ≠ block → w < 64 →
              a.marksOf other w = (s.bank b).array.marksOf other w ∧
              a.page other w p = (s.bank b).array.page other w p)))

/-- When the last source ends, every block takes up its die-reset state over the kept arrays, with the id sampled from the straps
and the nonce drawn: the status view is the one the manual gives for it, both output buffers are free with 0xFF throughout, the
transmit set is empty, and the port stands out of frame with every count at 0. While another source holds, only that source is
lifted; a source that does not hold is refused (log entry 3). -/
def Obligations.ResetEndLeavesTheDieResetState : Prop :=
  ∀ (s : State) (source : ResetSource) (straps : StationId) (nonce : Nonce) (hselLow : Bool),
    (s.inReset.holds source = false →
      exec (.dieResetEnd source straps nonce hselLow) s = .refused .resetSourceAbsent) ∧
    (s.inReset.holds source = true → s.inReset.finish source ≠ ⟨false, false, false⟩ →
      exec (.dieResetEnd source straps nonce hselLow) s = .next { s with inReset := s.inReset.finish source }) ∧
    (s.inReset.holds source = true → s.inReset.finish source = ⟨false, false, false⟩ →
      ∃ t, exec (.dieResetEnd source straps nonce hselLow) s = .next t ∧
        t.statusView = [0, BitVec.ofNat 8 straps.toNat, 0, 0, 0, 0, 0, 0, 4, 0, 2, 2, 0, 0, 0, 0, 0, 0,
          1, 0, 0, 255, 255, 255, 0, 1, 0, 0, 255, 255, 255, 0, 0] ∧
        t.bank0.array = s.bank0.array ∧ t.bank1.array = s.bank1.array ∧ t.heldInReset = false ∧
        t.attentionAsserted = false ∧ t.tagsInUse = [] ∧ t.ctl.id = straps ∧ t.ctl.nonce = nonce ∧
        t.ctl.settings = none ∧ t.link.awaitRise = hselLow ∧
        (∀ k, t.ctl.table.entry k = ⟨false, 0, none, 0#4, 0, none⟩) ∧
        t.ctl.transmit = ⟨false, false, false, false, false, Vector.replicate 16 none⟩ ∧
        t.ctl.renewal = none ∧ t.ctl.holdOff = none ∧ t.ctl.window = none ∧
        (∀ b, (t.bank b).latch = none ∧ (t.bank b).pendingSlot = none ∧ (t.bank b).openBlock = none ∧
          (t.bank b).senseLatch = none ∧ (t.bank b).step = none ∧ (t.bank b).retired = [] ∧
          (t.bank b).output.holder = none ∧ (∀ a, pageByte (t.bank b).output.page a = 0xFF#8) ∧
          (∀ p, (t.bank b).staging.get p = ⟨false, []⟩)) ∧
        t.port.framing = .outOfFrame ∧ t.port.recessiveCount = 0 ∧ t.port.dominantCount = 0 ∧
        t.port.rejectionRun = 0 ∧ t.port.rejectRun = 0 ∧
        t.port.sending = none ∧ t.port.stuck = false ∧ t.pending = s.pending)

/-! ### The array and its steps -/

/-- What is written into a bank's array is what it reads as, and nothing else of it changes: marks by word line, bytes by page,
erase-complete marks by block, each kind leaving the other two as they are. -/
def Obligations.ArrayReadsBackWhatIsWritten : Prop :=
  ∀ (a : ArrayBank) (block w other v : Nat) (m : PassMarks) (pages : Trio Page) (p : Position) (present : Bool),
    a.canonical = true → trioWf pages = true → w < 64 → v < 64 →
    (a.setMarks block w m).marksOf block w = m ∧
    ((block ≠ other ∨ w ≠ v) → (a.setMarks block w m).marksOf other v = a.marksOf other v) ∧
    (a.writeWordLine block w pages).page block w p = pages.get p ∧
    ((block ≠ other ∨ w ≠ v) → (a.writeWordLine block w pages).page other v p = a.page other v p) ∧
    (a.setEraseComplete block present).eraseComplete block = present ∧
    (block ≠ other → (a.setEraseComplete block present).eraseComplete other = a.eraseComplete other) ∧
    (∀ u x q,
      (a.setMarks block w m).page u x q = a.page u x q ∧
      (a.setMarks block w m).eraseComplete u = a.eraseComplete u ∧
      (a.writeWordLine block w pages).marksOf u x = a.marksOf u x ∧
      (a.writeWordLine block w pages).eraseComplete u = a.eraseComplete u ∧
      (a.setEraseComplete block present).marksOf u x = a.marksOf u x ∧
      (a.setEraseComplete block present).page u x q = a.page u x q) ∧
    (a.setMarks block w m).canonical = true ∧ (a.writeWordLine block w pages).canonical = true ∧
    (a.setEraseComplete block present).canonical = true

/-- A sense changes nothing in the array, and its outcome follows the erase-complete mark and the word line's condition: TORN
in an UNCLEAN block, else ERASED_PAGE with 0xFF throughout, COARSE_ONLY, TORN for the two partial conditions, and OK, which
on a host block returns the bytes last placed. The condition is read from the four marks by the five rows of its table. -/
def Obligations.SenseOutcomeFollowsTheMarks : Prop :=
  ∀ (a : ArrayBank) (block w : Nat) (p : Position) (cells : Option Page) (owner : SenseOwner),
    let r := a.sense block w p cells owner
    let marks := a.marksOf block w
    (marks = ⟨false, false, false, false⟩ → a.condition block w = .erased) ∧
    (marks = ⟨true, false, false, false⟩ → a.condition block w = .coarsePartial) ∧
    (marks = ⟨true, true, false, false⟩ → a.condition block w = .coarse) ∧
    (marks = ⟨true, true, true, false⟩ → a.condition block w = .finePartial) ∧
    (marks = ⟨true, true, true, true⟩ → a.condition block w = .fine) ∧
    (marks.legal = true ↔ marks ∈ ([⟨false, false, false, false⟩, ⟨true, false, false, false⟩, ⟨true, true, false, false⟩,
      ⟨true, true, true, false⟩, ⟨true, true, true, true⟩] : List PassMarks)) ∧
    (a.eraseComplete block = false → r.outcome = .torn) ∧
    (a.eraseComplete block = true →
      (a.condition block w = .erased → r.outcome = .erasedPage ∧ r.page = []) ∧
      (a.condition block w = .coarsePartial → r.outcome = .torn) ∧
      (a.condition block w = .coarse → r.outcome = .coarseOnly) ∧
      (a.condition block w = .finePartial → r.outcome = .torn) ∧
      (a.condition block w = .fine → r.outcome = .ok ∧ (block ≤ 2045 → r.page = a.page block w p))) ∧
    r.marks = marks ∧ r.owner = owner

/-- The end of a pulse begins its verify. At the end of the first erase pulse of a block, of a host ERASE or of a map erase,
every word line of the block has lost its marks and every byte reads 0xFF; any other pulse's end leaves the array as it
was. Where no pulse is under way the happening is refused. -/
def Obligations.PulseEndBeginsTheVerify : Prop :=
  ∀ (s : State) (b : BankId),
    ((s.heldInReset = true ∨ ∀ use, (s.bank b).step ≠ some (.pulse use)) →
      exec (.pulseEnd b) s = .refused .stepNotUnderWay) ∧
    (∀ use, s.heldInReset = false → (s.bank b).step = some (.pulse use) →
      let first := fun block : Nat =>
        (use = .erase ∧ ∃ sl behind, (s.bank b).queue = sl :: behind ∧ sl.pulses = 1 ∧ sl.block = block) ∨
          (use = .mapErase ∧ ∃ begun, (s.bank b).internal = some ⟨.rewriteErase 1, begun⟩ ∧
            mapBlockNumber (s.bank b).otherMapBlock = block)
      ∃ a, exec (.pulseEnd b) s = .next (s.setBank b { s.bank b with step := some (.verify use), array := a }) ∧
        a.eraseMarks = (s.bank b).array.eraseMarks ∧
        ((∀ block, ¬ first block) → a = (s.bank b).array) ∧
        (∀ block, first block → (s.bank b).array.canonical = true →
          ∀ w p, w < 64 →
            a.marksOf block w = ⟨false, false, false, false⟩ ∧ a.page block w p = [] ∧
            ∀ other, other ≠ block →
              a.marksOf other w = (s.bank b).array.marksOf other w ∧
              a.page other w p = (s.bank b).array.page other w p))

/-- A READ whose sense ends completes into a free buffer under its tag with the outcome of the sense; with the buffer held it
ends ABORTED on a stop request, and otherwise keeps its result in the sense latch, leaves the buffer alone, and in a coherent
state its slot has become OUTPUT_WAIT. -/
def Obligations.ReadSenseEndCompletesOrWaits : Prop :=
  ∀ (s : State) (b : BankId) (cells : Option Page) (sl : Slot) (w : Nat) (p : Position),
    s.heldInReset = false → (s.bank b).step = some (.sense .read) → (s.bank b).runningRead = some sl →
    sl.op = .read w p →
    let r := (s.bank b).array.sense sl.block w p cells (.read sl.tag)
    ∃ t more, exec (.readSenseEnd b cells) s = .next t ∧ t.port = s.port ∧ t.link = s.link ∧
      t.inReset = s.inReset ∧ t.pending = s.pending ∧
      ((s.bank b).output.holder = none →
        t.completions = s.completions ++ (sl.finish r.outcome noFlags :: more) ∧
        (t.bank b).output = ⟨some sl.tag, r.page⟩) ∧
      ((s.bank b).output.holder ≠ none → sl.stopRequest = true →
        t.completions = s.completions ++ (sl.finish .aborted noFlags :: more) ∧
        (t.bank b).output = (s.bank b).output ∧ (t.bank b).senseLatch = none) ∧
      ((s.bank b).output.holder ≠ none → sl.stopRequest = false →
        t.completions = s.completions ++ more ∧ (t.bank b).output = (s.bank b).output ∧
        (t.bank b).senseLatch = some r ∧
        (s.coherent = true → { sl with state := .outputWait } ∈ (t.bank b).queue))

/-- A boundary that ends no operation honours a stop request first, with the stores dropped of a PROGRAM or FINISH that has
pulsed; then a pause order where the gate does not let the bank go on, and the operation is HELD with BUDGET_WAITED set and
its accumulator at 0; otherwise the next pulse begins. -/
def Obligations.BoundaryHonoursStopThenPause : Prop :=
  ∀ (bk : Bank) (sl : Slot) (gate : Bool),
    let rest : Bank := { bk with step := none, pauseOrder := false }
    (sl.stopRequest = true → (∃ w, sl.op = .program w) ∨ sl.op = .finish → sl.arrayTouched = true →
      bk.boundary sl gate =
        ⟨{ rest with
            openBlock := none, pendingSlot := none, latch := none, pass := none, passPulses := 0
            queue := removeTag sl.tag bk.queue }, [sl.finish .aborted noFlags]⟩) ∧
    (sl.stopRequest = true → ((∃ e, sl.op = .erase e) ∨ sl.arrayTouched = false) →
      bk.boundary sl gate = ⟨{ rest with queue := removeTag sl.tag bk.queue }, [sl.finish .aborted noFlags]⟩) ∧
    (sl.stopRequest = false → bk.pauseOrder = true → gate = false →
      bk.boundary sl gate =
        ⟨{ rest with queue := bk.queue.map fun x =>
            if x.tag = sl.tag then { x with state := .held, waitTime := 0, budgetWaited := true } else x }, []⟩) ∧
    (sl.stopRequest = false → (bk.pauseOrder = false ∨ gate = true) →
      bk.boundary sl gate = ⟨rest.nextPulse sl, []⟩)

/-- The next pulse of an operation counts it, sets ARRAY_TOUCHED and makes the slot RUNNING. The first coarse pulse moves the
staging buffer into the latch in the same change and empties it, and the pages it takes are what the array's bytes become (log
entry 14); the first pulse of a pass writes its begun mark; the first
erase pulse removes the erase-complete mark and, where the block is open, drops the record and the pending slot. -/
def Obligations.NextPulseBeginsItsPass : Prop :=
  ∀ (bk : Bank) (sl : Slot),
    let pulsed := fun n : Nat => bk.queue.map fun x =>
      if x.tag = sl.tag then { x with state := .running, arrayTouched := true, pulses := n } else x
    (∀ w, sl.op = .program w → bk.pass = none →
      let pages : Trio Page := ⟨bk.staging.low.page, bk.staging.middle.page, bk.staging.high.page⟩
      bk.nextPulse sl = { bk with
        latch := some pages
        staging := ⟨⟨false, []⟩, ⟨false, []⟩, ⟨false, []⟩⟩
        pass := some ⟨.coarse, w⟩
        passPulses := 1
        array := (bk.array.setMarks sl.block w
          { bk.array.marksOf sl.block w with coarseBegun := true }).writeWordLine sl.block w pages
        queue := pulsed 1
        step := some (.pulse .coarse) }) ∧
    (∀ p, ((∃ w, sl.op = .program w) ∨ sl.op = .finish) → bk.pass = some p →
      ∃ a, bk.nextPulse sl = { bk with
          passPulses := bk.passPulses + 1
          array := a
          queue := pulsed (bk.passPulses + 1)
          step := some (.pulse (if p.kind = .coarse then .coarse else .fine)) } ∧
        (0 < bk.passPulses → a = bk.array) ∧
        (bk.passPulses = 0 → p.kind = .fine →
          a = bk.array.setMarks sl.block p.wordLine { bk.array.marksOf sl.block p.wordLine with fineBegun := true })) ∧
    (∀ e, sl.op = .erase e →
      (0 < sl.pulses →
        bk.nextPulse sl = { bk with queue := pulsed (sl.pulses + 1), step := some (.pulse .erase) }) ∧
      (sl.pulses = 0 →
        let opened := ∃ r, bk.openBlock = some r ∧ r.block = sl.block
        ∃ ob ps, bk.nextPulse sl = { bk with
            openBlock := ob, pendingSlot := ps
            array := bk.array.setEraseComplete sl.block false
            queue := pulsed 1
            step := some (.pulse .erase) } ∧
          (opened → ob = none ∧ ps = none) ∧ (¬ opened → ob = bk.openBlock ∧ ps = bk.pendingSlot)))

/-- The end of a blank check: a block that is not ERASED ends the PROGRAM NOT_ERASED with its stores untouched; otherwise the
boundary is settled, from which the PROGRAM goes on to its move and first coarse pulse. -/
def Obligations.BlankCheckEndJudgesTheBlock : Prop :=
  ∀ (s : State) (b : BankId) (sl : Slot) (behind : List Slot) (w : Nat),
    s.heldInReset = false → (s.bank b).step = some (.sense .blankCheck) → (s.bank b).queue = sl :: behind →
    sl.op = .program w →
    let blank := (s.bank b).array.eraseComplete sl.block = true ∧
      (s.bank b).array.marksOf sl.block 0 = ⟨false, false, false, false⟩
    (¬ blank → exec (.blankCheckEnd b) s = .next (s.conclude b
      ⟨{ s.bank b with
          senseLatch := none, step := none, pauseOrder := false
          queue := removeTag sl.tag (s.bank b).queue }, [sl.finish .notErased noFlags]⟩)) ∧
    (blank → exec (.blankCheckEnd b) s = .next (s.conclude b
      (({ s.bank b with senseLatch := none } : Bank).boundary sl (s.gateAdmits b))))

/-- The end of a coarse verify: on a pass the word line is COARSE, and a PROGRAM of word line 0 ends OK with its pages in the
pending slot and the block open at next word line 1, while any other goes on to the fine pass of the word line below; a failed
verify after the tenth pulse fails the pass, and before it settles a boundary. -/
def Obligations.CoarseVerifyEndSettlesThePass : Prop :=
  ∀ (s : State) (b : BankId) (sl : Slot) (behind : List Slot) (w v : Nat) (pages : Trio Page),
    s.heldInReset = false → (s.bank b).step = some (.verify .coarse) → (s.bank b).queue = sl :: behind →
    sl.op = .program w → (s.bank b).pass = some ⟨.coarse, v⟩ → (s.bank b).latch = some pages →
    let bk := s.bank b
    let gate := s.gateAdmits b
    let marked := bk.array.setMarks sl.block v { bk.array.marksOf sl.block v with coarseDone := true }
    (w = 0 → exec (.coarseVerifyEnd b true) s = .next (s.conclude b
      ⟨{ bk with
          array := marked, step := none, pauseOrder := false
          pendingSlot := some ⟨sl.block, 0, pages⟩, openBlock := some ⟨sl.block, 1⟩
          latch := none, pass := none, passPulses := 0
          queue := removeTag sl.tag bk.queue }, [sl.finish .ok noFlags]⟩)) ∧
    (1 ≤ w → exec (.coarseVerifyEnd b true) s = .next (s.conclude b
      (({ bk with array := marked, pass := some ⟨.fine, w - 1⟩, passPulses := 0 } : Bank).boundary sl gate))) ∧
    (10 ≤ bk.passPulses → exec (.coarseVerifyEnd b false) s = .next (s.conclude b
      (bk.failHead sl ⟨.programFail, some .coarse, some v⟩))) ∧
    (bk.passPulses < 10 → exec (.coarseVerifyEnd b false) s = .next (s.conclude b (bk.boundary sl gate)))

/-- The end of a fine verify: on a pass the word line is FINE and holds the pass's three pages; a PROGRAM below word line 63 then
ends OK with the record advanced and its own pages pending, the PROGRAM of word line 63 goes on to its own fine pass and then
closes the block, and a FINISH closes it; a failed verify after the fourteenth pulse fails, and before it settles a
boundary. -/
def Obligations.FineVerifyEndSettlesThePass : Prop :=
  ∀ (s : State) (b : BankId) (sl : Slot) (behind : List Slot) (v : Nat) (ps : PendingSlot),
    s.heldInReset = false → (s.bank b).step = some (.verify .fine) → (s.bank b).queue = sl :: behind →
    (s.bank b).pass = some ⟨.fine, v⟩ → (s.bank b).pendingSlot = some ps →
    let bk := s.bank b
    let gate := s.gateAdmits b
    let placed := fun pages : Trio Page =>
      (bk.array.setMarks sl.block v { bk.array.marksOf sl.block v with fineDone := true }).writeWordLine sl.block v pages
    let closed := fun pages : Trio Page => s.conclude b
      ⟨{ bk with
          array := placed pages, step := none, pauseOrder := false
          pendingSlot := none, openBlock := none, latch := none, pass := none, passPulses := 0
          queue := removeTag sl.tag bk.queue }, [sl.finish .ok noFlags]⟩
    (∀ w pages, sl.op = .program w → w < 63 → v ≠ w → bk.latch = some pages →
      exec (.fineVerifyEnd b true) s = .next (s.conclude b
        ⟨{ bk with
            array := placed ps.pages, step := none, pauseOrder := false
            pendingSlot := some ⟨sl.block, w, pages⟩, openBlock := some ⟨sl.block, w + 1⟩
            latch := none, pass := none, passPulses := 0
            queue := removeTag sl.tag bk.queue }, [sl.finish .ok noFlags]⟩)) ∧
    (sl.op = .program 63 → v < 63 →
      exec (.fineVerifyEnd b true) s = .next (s.conclude b
        (({ bk with array := placed ps.pages, pass := some ⟨.fine, 63⟩, passPulses := 0 } : Bank).boundary sl gate))) ∧
    (∀ pages, sl.op = .program 63 → v = 63 → bk.latch = some pages →
      exec (.fineVerifyEnd b true) s = .next (closed pages)) ∧
    (sl.op = .finish → exec (.fineVerifyEnd b true) s = .next (closed ps.pages)) ∧
    ((sl.op = .finish ∨ ∃ w, sl.op = .program w) →
      (14 ≤ bk.passPulses → exec (.fineVerifyEnd b false) s = .next (s.conclude b
        (bk.failHead sl ⟨.programFail, some .fine, some v⟩))) ∧
      (bk.passPulses < 14 → exec (.fineVerifyEnd b false) s = .next (s.conclude b (bk.boundary sl gate))))

/-- The end of the erase verify of a host ERASE, in the order success, failure, stop, suspension, pause, next pulse: a passing
verify restores the erase-complete mark and ends the ERASE OK; the verify after the eighth pulse fails it; a suspendable
ERASE with no stop request, fewer than four suspensions, a free buffer and a candidate READ becomes SUSPENDED; anything else
settles a boundary. At the front of a bank whose ERASE is SUSPENDED the nearest candidate READ is taken, with its path fixed,
where none has been taken and the buffer is free; one on the pending path ends at once into the buffer, and one on the sensing
path waits for the gate. Where none can be taken the gate is asked for the ERASE, which gives its next pulse, or becomes
HELD. -/
def Obligations.EraseVerifyEndFollowsItsOrder : Prop :=
  (∀ (s : State) (b : BankId) (sl : Slot) (behind : List Slot) (suspendable : Bool),
    s.heldInReset = false → (s.bank b).step = some (.verify .erase) → (s.bank b).queue = sl :: behind →
    sl.op = .erase suspendable →
    let bk := s.bank b
    let suspends := suspendable = true ∧ sl.stopRequest = false ∧ sl.suspensions < 4 ∧ bk.output.holder = none ∧
      ∃ r ahead after, behind = ahead ++ r :: after ∧ r.isRead = true ∧ r.state = .queued ∧ r.block ≠ sl.block ∧
        ∀ x ∈ ahead, x.isRead = true
    (exec (.eraseVerifyEnd b true) s = .next (s.conclude b
      ⟨{ bk with
          array := bk.array.setEraseComplete sl.block true, step := none, pauseOrder := false
          queue := removeTag sl.tag bk.queue }, [sl.finish .ok noFlags]⟩)) ∧
    (8 ≤ sl.pulses → exec (.eraseVerifyEnd b false) s = .next (s.conclude b
      (bk.failHead sl ⟨.eraseFail, none, none⟩))) ∧
    (sl.pulses < 8 → suspends → exec (.eraseVerifyEnd b false) s = .next (s.conclude b
      ⟨{ bk with
          step := none, pauseOrder := false
          queue := bk.queue.map fun x =>
            if x.tag = sl.tag then { x with state := .suspended, suspensions := x.suspensions + 1 } else x }, []⟩)) ∧
    (sl.pulses < 8 → ¬ suspends →
      exec (.eraseVerifyEnd b false) s = .next (s.conclude b (bk.boundary sl (s.gateAdmits b))))) ∧
  ∀ (bk : Bank) (sl : Slot) (behind : List Slot),
    bk.internal = none → bk.queue = sl :: behind → sl.state = .suspended →
    let taken := fun x : Slot => x.state = .waiting ∨ x.state = .running
    let mayTake := fun x : Slot => x.isRead = true ∧ x.state = .queued ∧ x.block ≠ sl.block
    ((∀ x ∈ behind, ¬ taken x) →
      (∀ ahead r after w p, bk.output.holder = none → behind = ahead ++ r :: after → r.op = .read w p → mayTake r →
        (∀ x ∈ ahead, x.isRead = true ∧ ¬ mayTake x) →
        bk.advanceStep = some ⟨{ bk with queue := bk.queue.map fun x =>
          if x.tag = r.tag then { x with state := .waiting, waitTime := 0, path := bk.pathOf x } else x }, []⟩) ∧
      ((bk.output.holder ≠ none ∨ ∀ ahead r after, behind = ahead ++ r :: after → mayTake r →
          ∃ x ∈ ahead, x.isRead = false) →
        bk.advanceStep = none) ∧
      bk.proceed = bk.nextPulse sl ∧ bk.reservation = sl.reservation ∧ bk.isRunning = false ∧
      bk.noteWaiting = { bk with queue := { sl with state := .held, waitTime := 0, budgetWaited := true } :: behind }) ∧
    (∀ ahead r after w p, behind = ahead ++ r :: after → taken r → (∀ x ∈ ahead, ¬ taken x) → r.op = .read w p →
      (r.state = .waiting → r.path = some .pending → bk.output.holder = none → ∀ ps, bk.pendingSlot = some ps →
        bk.advanceStep = some ⟨{ bk with
          output := ⟨some r.tag, ps.pages.get p⟩
          queue := bk.queue.filter fun x => x.tag != r.tag }, [r.finish .ok fromPendingFlag]⟩) ∧
      (r.path = some .sensing → bk.advanceStep = none ∧ bk.reservation = 2 ∧
        (bk.isRunning = true ↔ r.state = .running) ∧
        (r.state = .waiting → bk.proceed = { bk with
          step := some (.sense .read)
          queue := bk.queue.map fun x => if x.tag = r.tag then { x with state := .running } else x })))

/-- A failed head becomes RECORDING with what the failure fixes, and a PROGRAM or FINISH loses latch, record and pending slot.
The block is then handed to the map unit: a full list ends the slot with LIST_FULL; a DEGRADED bank lists the block and ends
the slot with MAP_DEGRADED; otherwise the block is listed and a MAP_UPDATE stands ahead, or a MAP_REWRITE where the map block
is full. The last case covers LOADED, for which the manual gives it, and by the model's choice LOADING and LOST, where no
failure can arise (log entry 24). -/
def Obligations.FailureIsRecordedAndHandedOff : Prop :=
  ∀ (bk : Bank) (sl : Slot) (behind : List Slot) (failure : Failure),
    bk.queue = sl :: behind → (∀ x ∈ behind, x.tag ≠ sl.tag) → sl.isRead = false →
    let writes := (∃ w, sl.op = .program w) ∨ sl.op = .finish
    let failed : Slot := { sl with state := .recording, stopRequest := false, failure := some failure }
    let entry : RetiredEntry := ⟨sl.block, if sl.op.code = 4#8 then .eraseFail else .programFail⟩
    ∃ ob ps la pa n,
      ((writes ∧ ob = none ∧ ps = none ∧ la = none ∧ pa = none ∧ n = 0) ∨
        (¬ writes ∧ ob = bk.openBlock ∧ ps = bk.pendingSlot ∧ la = bk.latch ∧ pa = bk.pass ∧ n = bk.passPulses)) ∧
      let left : Bank := { bk with
        step := none, pauseOrder := false, openBlock := ob, pendingSlot := ps, latch := la, pass := pa, passPulses := n }
      (64 ≤ bk.retired.length →
        bk.failHead sl failure = ⟨{ left with queue := behind },
          [failed.finish failure.outcome (listFullFlag (decide (bk.mapState = .degraded)))]⟩) ∧
      (bk.retired.length < 64 → bk.mapState = .degraded →
        bk.failHead sl failure = ⟨{ left with queue := behind, retired := bk.retired ++ [entry] },
          [failed.finish failure.outcome mapDegradedFlag]⟩) ∧
      (bk.retired.length < 64 → bk.mapState ≠ .degraded →
        bk.failHead sl failure = ⟨{ left with
          queue := failed :: behind
          retired := bk.retired ++ [entry]
          internal := some ⟨if bk.nextMapPage < 64 then .mapUpdate 0 else .rewriteErase 0, false⟩ }, []⟩)

/-! ### The map unit -/

/-- The end of a scan sense judges the page and goes on: a block whose erase-complete mark is absent, an erased page or word
line 63 ends the scan of the block, block A's end leads to block B, and block B's end settles the map from the best valid page,
or as LOST where there is none. Of two valid pages the higher sequence number is the better, of equal numbers the one in block
A, and within one block the one on the higher word line, which the scan comes to later. -/
def Obligations.MapScanSenseEndGoesOnOrSettles : Prop :=
  (∀ old new : ScanBest,
    betterPage none new = new ∧
    (old.seq.toNat < new.seq.toNat → betterPage (some old) new = new) ∧
    (new.seq.toNat < old.seq.toNat → betterPage (some old) new = old) ∧
    (old.seq = new.seq → old.block = .a → new.block = .b → betterPage (some old) new = old) ∧
    (old.seq = new.seq → old.block = new.block → betterPage (some old) new = new)) ∧
  ∀ (s : State) (b : BankId) (cells : Option Page) (scan : Scan) (begun : Bool),
    s.heldInReset = false → (s.bank b).step = some (.sense .mapScan) →
    (s.bank b).internal = some ⟨.mapLoad scan, begun⟩ →
    let bk := s.bank b
    let r : SenseResult := bk.array.sense (mapBlockNumber scan.block) scan.wordLine .low cells .mapScan
    let valid := match readMapPage r.page with
      | some (seq, entries) => if r.outcome = OpOutcome.ok then some (⟨seq, entries, scan.block, scan.wordLine⟩ : ScanBest) else none
      | none => none
    let judged : Scan :=
      match valid with
      | some page => { scan with best := some (betterPage scan.best page) }
      | none => if r.outcome = OpOutcome.erasedPage then scan.noteErased else scan
    let ends := r.eraseComplete = false ∨ r.outcome = .erasedPage ∨ 63 ≤ scan.wordLine
    let on := fun next : Scan => s.conclude b
      ⟨{ bk with senseLatch := none, internal := some ⟨.mapLoad next, true⟩, step := some (.sense .mapScan) }, []⟩
    (¬ ends → exec (.mapScanSenseEnd b cells) s = .next (on { judged with wordLine := scan.wordLine + 1 })) ∧
    (ends → scan.block = .a →
      exec (.mapScanSenseEnd b cells) s = .next (on { judged with block := .b, wordLine := 0 })) ∧
    (ends → scan.block = .b → ∀ best, judged.best = some best →
      exec (.mapScanSenseEnd b cells) s = .next (s.conclude b
        ⟨{ bk with
            senseLatch := none, step := none, internal := none
            retired := best.entries, mapSeq := best.seq, mapBlock := some best.block
            nextMapPage := (if best.block = .a then judged.firstErasedA else judged.firstErasedB).getD 64
            mapFailureRun := 0, mapState := .loaded }, []⟩)) ∧
    (ends → scan.block = .b → judged.best = none →
      exec (.mapScanSenseEnd b cells) s = .next (s.conclude b
        ⟨{ bk with
            senseLatch := none, step := none, internal := none
            retired := [], mapSeq := 0#32, mapBlock := none, nextMapPage := 0, mapState := .lost }, []⟩))

/-- A map page written and read back gives its sequence number and its entries, for every list of at most 64 entries with no block
twice and every block from 0 to 2045. -/
def Obligations.MapPageReadsBackItsList : Prop :=
  ∀ (seq : BitVec 32) (entries : List RetiredEntry), entries.length ≤ 64 → distinctBlocks entries = true →
    (∀ e ∈ entries, e.block < 2046) → readMapPage (mapPage seq entries) = some (seq, entries)

/-- The end of a map-page verify. On a pass the page is FINE with all four marks and holds the list under the next sequence
number, which the page holds from this verify on (log entry 14) and which after 4,294,967,295 is free (log entry 16), it is the
bank's newest page, and the RECORDING slot ends with MAP_WRITTEN. A failed verify before the sixth pulse gives a further pulse;
after it a MAP_UPDATE or MAP_REWRITE tries the next word line, a MAP_UPDATE out of word lines makes way for a MAP_REWRITE, and
the third failed write in a row makes the bank DEGRADED and ends the slot with MAP_DEGRADED. -/
def Obligations.MapPageVerifyEndSettlesTheWrite : Prop :=
  ∀ (s : State) (b : BankId) (sl : Slot) (behind : List Slot) (failure : Failure) (cur : MapBlock) (begun : Bool),
    s.heldInReset = false → (s.bank b).step = some (.verify .mapPage) → (s.bank b).queue = sl :: behind →
    sl.state = .recording → sl.failure = some failure → (s.bank b).mapBlock = some cur →
    let bk := s.bank b
    let other : MapBlock := if cur = .a then .b else .a
    let seq := if bk.mapSeq = 0xFFFFFFFF#32 then Config.sequenceAfterLast else bk.mapSeq + 1#32
    let written := fun (block : MapBlock) (w : Nat) => s.conclude b
      ⟨{ bk with
          step := none, internal := none
          array := (bk.array.setMarks (mapBlockNumber block) w ⟨true, true, true, true⟩).writePage
            (mapBlockNumber block) w .low (mapPage seq bk.retired)
          mapSeq := seq, mapBlock := some block, nextMapPage := w + 1, mapFailureRun := 0
          queue := behind }, [sl.finish failure.outcome mapWrittenFlag]⟩
    let tries := fun (block : MapBlock) (w next run : Nat) (op : InternalOp) => s.conclude b
      ⟨{ bk with
          nextMapPage := next, mapFailureRun := run
          array := bk.array.setMarks (mapBlockNumber block) w
            { bk.array.marksOf (mapBlockNumber block) w with coarseBegun := true }
          internal := some ⟨op, true⟩, step := some (.pulse .mapPage) }, []⟩
    let degraded := fun next : Nat => s.conclude b
      ⟨{ bk with
          step := none, internal := none, nextMapPage := next, mapFailureRun := bk.mapFailureRun + 1
          mapState := .degraded, queue := behind }, [sl.finish failure.outcome mapDegradedFlag]⟩
    let further := fun op : InternalOp => s.conclude b
      ⟨{ bk with internal := some ⟨op, true⟩, step := some (.pulse .mapPage) }, []⟩
    (∀ n, bk.internal = some ⟨.mapUpdate n, begun⟩ →
      exec (.mapPageVerifyEnd b true) s = .next (written cur bk.nextMapPage) ∧
      (n < 6 → exec (.mapPageVerifyEnd b false) s = .next (further (.mapUpdate (n + 1)))) ∧
      (6 ≤ n → 2 ≤ bk.mapFailureRun →
        exec (.mapPageVerifyEnd b false) s = .next (degraded (bk.nextMapPage + 1))) ∧
      (6 ≤ n → bk.mapFailureRun < 2 → bk.nextMapPage + 1 < 64 →
        exec (.mapPageVerifyEnd b false) s = .next
          (tries cur (bk.nextMapPage + 1) (bk.nextMapPage + 1) (bk.mapFailureRun + 1) (.mapUpdate 1))) ∧
      (6 ≤ n → bk.mapFailureRun < 2 → 64 ≤ bk.nextMapPage + 1 →
        exec (.mapPageVerifyEnd b false) s = .next (s.conclude b
          ⟨{ bk with
              step := none, nextMapPage := bk.nextMapPage + 1, mapFailureRun := bk.mapFailureRun + 1
              internal := some ⟨.rewriteErase 0, false⟩ }, []⟩))) ∧
    (∀ w n, bk.internal = some ⟨.rewritePage w n, begun⟩ →
      exec (.mapPageVerifyEnd b true) s = .next (written other w) ∧
      (n < 6 → exec (.mapPageVerifyEnd b false) s = .next (further (.rewritePage w (n + 1)))) ∧
      (6 ≤ n → 2 ≤ bk.mapFailureRun →
        exec (.mapPageVerifyEnd b false) s = .next (degraded bk.nextMapPage)) ∧
      (6 ≤ n → bk.mapFailureRun < 2 →
        exec (.mapPageVerifyEnd b false) s = .next
          (tries other (w + 1) bk.nextMapPage (bk.mapFailureRun + 1) (.rewritePage (w + 1) 1))))

/-- The end of the erase verify of a MAP_REWRITE: on a pass the other map block is erased and its word line 0 gets its first
map-page pulse; a failed verify before the eighth pulse gives a further one, and after it the bank is DEGRADED and the
RECORDING slot ends with MAP_DEGRADED. -/
def Obligations.MapEraseVerifyEndLeadsToThePages : Prop :=
  ∀ (s : State) (b : BankId) (sl : Slot) (behind : List Slot) (failure : Failure) (cur : MapBlock) (n : Nat)
      (begun : Bool),
    s.heldInReset = false → (s.bank b).step = some (.verify .mapErase) → (s.bank b).queue = sl :: behind →
    sl.state = .recording → sl.failure = some failure → (s.bank b).mapBlock = some cur →
    (s.bank b).internal = some ⟨.rewriteErase n, begun⟩ →
    let bk := s.bank b
    let other := mapBlockNumber (if cur = .a then .b else .a)
    (exec (.mapEraseVerifyEnd b true) s = .next (s.conclude b
      ⟨{ bk with
          array := (bk.array.setEraseComplete other true).setMarks other 0
            { bk.array.marksOf other 0 with coarseBegun := true }
          internal := some ⟨.rewritePage 0 1, true⟩, step := some (.pulse .mapPage) }, []⟩)) ∧
    (n < 8 → exec (.mapEraseVerifyEnd b false) s = .next (s.conclude b
      ⟨{ bk with internal := some ⟨.rewriteErase (n + 1), true⟩, step := some (.pulse .mapErase) }, []⟩)) ∧
    (8 ≤ n → exec (.mapEraseVerifyEnd b false) s = .next (s.conclude b
      ⟨{ bk with step := none, internal := none, mapState := .degraded, queue := behind },
        [sl.finish failure.outcome mapDegradedFlag]⟩))

/-! ### Settling a change, the gate and the claims -/

/-- What follows in the same change once a command has had its own effect leaves the port, the link, reset, the queue of
commands, the station, the configuration, the renewal timer and the learning window, the map units and every entry but the own
one; the hold-off it starts and clears as the need asks, and it runs in IN_SERVICE and SOLO alone. It only adds records to the
completion queue; and a bank whose front is running is left alone but for a pause order and BUDGET_WAITED. What happens at
once at the front of a bank, its start points and completions, is carried on until nothing further does. Where an array step
ended, the bank's own change and its records come first, and map news is raised exactly where the map state has become LOST or
DEGRADED. -/
def Obligations.SettlingKeepsTheRest : Prop :=
  (∀ s : State,
    let t := s.settle
    t.port = s.port ∧ t.link = s.link ∧ t.inReset = s.inReset ∧ t.fresh = s.fresh ∧ t.pending = s.pending ∧
    t.wire = s.wire ∧
    t.ctl.station = s.ctl.station ∧ t.ctl.id = s.ctl.id ∧ t.ctl.nonce = s.ctl.nonce ∧
    t.ctl.settings = s.ctl.settings ∧ t.ctl.digest = s.ctl.digest ∧ t.ctl.renewal = s.ctl.renewal ∧
    t.ctl.lapsed = s.ctl.lapsed ∧ t.ctl.window = s.ctl.window ∧ t.ctl.diverged = s.ctl.diverged ∧
    (s.ctl.station ≠ .inService → s.ctl.station ≠ .solo → t.ctl.holdOff = none) ∧
    (s.ctl.station ≠ .solo → t.ctl.table = s.ctl.table) ∧
    (∀ k, k ≠ s.ctl.id → t.ctl.table.entry k = s.ctl.table.entry k) ∧
    (∃ more, t.completions = s.completions ++ more) ∧
    (∀ b, (s.bank b).isRunning = true → ∃ q order,
      t.bank b = { s.bank b with queue := q, pauseOrder := order } ∧
      q.map (fun sl => { sl with budgetWaited := false }) =
        (s.bank b).queue.map fun sl => { sl with budgetWaited := false }) ∧
    (∀ b, (t.bank b).retired = (s.bank b).retired ∧ (t.bank b).mapState = (s.bank b).mapState ∧
      (t.bank b).mapBlock = (s.bank b).mapBlock ∧ (t.bank b).nextMapPage = (s.bank b).nextMapPage ∧
      (t.bank b).mapSeq = (s.bank b).mapSeq ∧ (t.bank b).mapFailureRun = (s.bank b).mapFailureRun) ∧
    (∀ b, (t.bank b).isRunning = false → (t.bank b).array = (s.bank b).array)) ∧
  (∀ (s : State) (b : BankId),
    ((s.bank b).advanceStep = none → s.advanceBank b = s) ∧
    (∀ u, (s.bank b).advanceStep = some u → s.advanceBank b =
      ({ s.setBank b u.bank with completions := s.completions ++ u.ended } : State).advanceBank b) ∧
    ((s.advanceBank b).bank b).advanceStep = none) ∧
  ∀ (s : State) (b : BankId) (u : Turn),
    let news := (u.bank.mapState = .lost ∨ u.bank.mapState = .degraded) ∧ u.bank.mapState ≠ (s.bank b).mapState
    let changed : State := { s.setBank b u.bank with completions := s.completions ++ u.ended }
    (¬ news → s.conclude b u = changed.settle) ∧
    (news → b = .zero → s.conclude b u = State.settle { changed with link := { s.link with mapNews0 := true } }) ∧
    (news → b = .one → s.conclude b u = State.settle { changed with link := { s.link with mapNews1 := true } })

/-- The begin gate admits a bank only while its station is IN_SERVICE and not LAPSED, or SOLO, and its holding is at least the
running reservation of the other bank and the reservation of its own; while a RELEASE is in its attempt, only within the total
that the RELEASE carries as well. A waiting bank that is admitted begins what stands at its front: a MAP_LOAD its first sense,
a MAP_UPDATE the coarse-begun mark and first pulse of the next map page, a MAP_REWRITE the first erase pulse of the other map
block, a READ its sense, a PROGRAM of word line 0 its blank check and any other its move and first coarse pulse, a FINISH the
first fine pulse of the pending word line, an ERASE its first erase pulse, and a HELD operation its next pulse. What an
operation reserves is fixed by its kind, and what a bank reserves, and runs under, by what stands at its front, line by line of
the two tables. -/
def Obligations.GateAdmitsUnderTheHolding : Prop :=
  (∀ bk : Bank,
    let own := fun sl : Slot => match sl.op with
      | .read _ _ => if sl.path = some .pending then 0 else 2
      | .program _ => 5
      | .finish => 4
      | .erase _ => 6
    let taken := fun x : Slot => x.state = .waiting ∨ x.state = .running
    (∀ op begun, bk.internal = some ⟨op, begun⟩ →
      bk.reservation = (match op with
        | .mapLoad _ => 2
        | .mapUpdate _ => 3
        | .rewriteErase _ => 6
        | .rewritePage _ _ => 6) ∧ bk.isRunning = begun) ∧
    (bk.internal = none → bk.queue = [] → bk.reservation = 0 ∧ bk.isRunning = false) ∧
    (∀ sl behind, bk.internal = none → bk.queue = sl :: behind →
      ((sl.state = .waiting ∨ sl.state = .running ∨ sl.state = .held) →
        bk.reservation = own sl ∧ (bk.isRunning = true ↔ sl.state = .running)) ∧
      ((sl.state = .queued ∨ sl.state = .outputWait ∨ sl.state = .recording) →
        bk.reservation = 0 ∧ bk.isRunning = false) ∧
      (sl.state = .suspended → (∀ x ∈ behind, ¬ taken x) → bk.reservation = own sl ∧ bk.isRunning = false) ∧
      (sl.state = .suspended → ∀ before r after, behind = before ++ r :: after → taken r → (∀ x ∈ before, ¬ taken x) →
        bk.reservation = own r ∧ (bk.isRunning = true ↔ r.state = .running))) ∧
    bk.runningReservation = (if bk.isRunning = true then bk.reservation else 0)) ∧
  (∀ s : State, s.need = s.bank0.reservation + s.bank1.reservation) ∧
  (∀ (s : State) (b : BankId),
    (s.gateAdmits b = true ↔
      ((s.ctl.station = .inService ∧ s.ctl.lapsed = false) ∨ s.ctl.station = .solo) ∧
      (s.bank (otherBank b)).runningReservation + (s.bank b).reservation ≤ s.holding ∧
      (∀ total line, s.port.sending = some ⟨.release total, line⟩ →
        (s.bank (otherBank b)).runningReservation + (s.bank b).reservation ≤ total.toNat)) ∧
    ((s.bank b).isWaiting = true ↔ (s.bank b).reservation ≠ 0 ∧ (s.bank b).isRunning = false) ∧
    ((s.bank b).isWaiting = true → s.gateAdmits b = true → s.tryBank b = s.setBank b (s.bank b).proceed) ∧
    (((s.bank b).isWaiting = false ∨ s.gateAdmits b = false) → s.tryBank b = s)) ∧
  ∀ bk : Bank,
    let current := mapBlockNumber (match bk.mapBlock with | some .b => MapBlock.b | _ => .a)
    let other := mapBlockNumber (match bk.mapBlock with | some .a => MapBlock.b | _ => .a)
    let begun := fun block w : Nat => bk.array.setMarks block w { bk.array.marksOf block w with coarseBegun := true }
    (∀ scan, bk.internal = some ⟨.mapLoad scan, false⟩ →
      bk.proceed = { bk with internal := some ⟨.mapLoad scan, true⟩, step := some (.sense .mapScan) }) ∧
    (bk.internal = some ⟨.mapUpdate 0, false⟩ → bk.proceed = { bk with
      array := begun current bk.nextMapPage, internal := some ⟨.mapUpdate 1, true⟩, step := some (.pulse .mapPage) }) ∧
    (bk.internal = some ⟨.rewriteErase 0, false⟩ → bk.proceed = { bk with
      array := bk.array.setEraseComplete other false
      internal := some ⟨.rewriteErase 1, true⟩, step := some (.pulse .mapErase) }) ∧
    ∀ sl behind, bk.internal = none → bk.queue = sl :: behind →
      let runs := fun (st : Step) => { bk with
        step := some st
        queue := bk.queue.map fun x => if x.tag = sl.tag then { x with state := .running } else x }
      (sl.state = .waiting →
        (∀ w p, sl.op = .read w p → bk.proceed = runs (.sense .read)) ∧
        (sl.op = .program 0 → bk.proceed = runs (.sense .blankCheck)) ∧
        (∀ w, sl.op = .program w → 1 ≤ w → bk.proceed = bk.firstCoarsePulse sl w ∧
          (bk.pass = none → bk.proceed = bk.nextPulse sl)) ∧
        (∀ r, sl.op = .finish → bk.openBlock = some r → bk.proceed = { bk with
          pass := some ⟨.fine, r.next - 1⟩
          passPulses := 1
          array := bk.array.setMarks sl.block (r.next - 1)
            { bk.array.marksOf sl.block (r.next - 1) with fineBegun := true }
          queue := bk.queue.map fun x =>
            if x.tag = sl.tag then { x with state := .running, arrayTouched := true, pulses := 1 } else x
          step := some (.pulse .fine) }) ∧
        (∀ e, sl.op = .erase e → bk.proceed = bk.nextPulse sl)) ∧
      (sl.state = .held → bk.proceed = bk.nextPulse sl)

/-- The claim total is the running reservations with each waiting bank's reservation added, bank 0 first, where the sum stays
within B; it never exceeds B where what runs does not, and a SOLO station whose claim is needed holds it at once. Once a change
is settled in IN_SERVICE, the transmit set holds a CLAIM exactly where a bank waits and the claim total exceeds H (log entry
20); a WITHDRAW where the own entry waits and no claim is needed; and where H exceeds N either a RELEASE is pending or the
hold-off runs, also where H > N has not ceased once a RELEASE was applied (log entry 33), and it runs only where no other entry
waits. -/
def Obligations.ClaimsAndReleasesFollowTheNeed : Prop :=
  ∀ s : State,
    let running := s.bank0.runningReservation + s.bank1.runningReservation
    let first := if s.bank0.isWaiting = true ∧ running + s.bank0.reservation ≤ s.ctl.budget
      then running + s.bank0.reservation else running
    s.claimTotal = (if s.bank1.isWaiting = true ∧ first + s.bank1.reservation ≤ s.ctl.budget
      then first + s.bank1.reservation else first) ∧
    running ≤ s.claimTotal ∧ (running ≤ s.ctl.budget → s.claimTotal ≤ s.ctl.budget) ∧
    (s.ctl.station = .solo → s.claimNeeded = true → running ≤ s.ctl.budget →
      s.soloClaim.holding = s.claimTotal ∧ s.soloClaim.ctl.own.waiting = none) ∧
    (s.ctl.station = .inService →
      let t := s.settle
      (t.ctl.transmit.claim = true ↔
        (t.bank0.isWaiting = true ∨ t.bank1.isWaiting = true) ∧ t.holding < t.claimTotal) ∧
      (t.ctl.own.waiting ≠ none → t.ctl.transmit.claim = false → t.ctl.transmit.withdraw = true) ∧
      (t.need < t.holding → t.ctl.transmit.release = true ∨ t.ctl.holdOff ≠ none) ∧
      (t.ctl.holdOff ≠ none → t.need < t.holding ∧ t.ctl.transmit.release = false ∧
        ∀ k, k ≠ t.ctl.id → (t.ctl.table.entry k).waiting = none))

/-! ### The timers -/

/-- The wait limit ends a WAITING or HELD operation with BUDGET_TIMEOUT once its accumulator has reached W, with the record's
fields as the slot gathered them; a HELD PROGRAM or FINISH that has pulsed loses latch, record and pending slot, and anything
else leaves them. Where no such operation holds the tag, or W is 0, no expiry can take place (log entry 3), and an accumulator
that stands below W is moved there (log entry 2). -/
def Obligations.WaitLimitEndsTheOperation : Prop :=
  ∀ (s : State) (tag : Byte), s.heldInReset = false → s.tableSound = true →
    (∀ b sl g, sl ∈ (s.bank b).queue → sl.tag = tag → (sl.state = .waiting ∨ sl.state = .held) →
      s.ctl.settings = some g → g.waitLimit ≠ 0 →
      let writes := sl.state = .held ∧ ((∃ w, sl.op = .program w) ∨ sl.op = .finish) ∧ sl.arrayTouched = true
      let rest := (s.bank b).queue.filter fun x => x.tag != tag
      ∃ t more waited, exec (.waitLimitExpiry tag) s = .next t ∧ 10 * g.waitLimit ≤ waited ∧ sl.waitTime ≤ waited ∧
        (let ends := fun bk : Bank => t = State.settle { s.setBank b bk with
          completions := s.completions ++ [{ sl with waitTime := waited : Slot }.finish .budgetTimeout noFlags] }
        (¬ writes → ends { s.bank b with queue := rest }) ∧
        (writes → ends { s.bank b with
          openBlock := none, pendingSlot := none, latch := none, pass := none, passPulses := 0, queue := rest })) ∧
        t.completions = s.completions ++
          ({ sl with waitTime := waited : Slot }.finish .budgetTimeout noFlags :: more) ∧
        (∀ k, ∀ x ∈ (t.bank k).queue, x.tag ≠ tag) ∧ t.port = s.port ∧ t.link = s.link ∧
        t.ctl.station = s.ctl.station ∧ t.ctl.settings = s.ctl.settings ∧ t.inReset = s.inReset ∧ t.pending = s.pending ∧
        (∀ k, ((s.bank k).isRunning = true ∨ (t.bank k).isRunning = false) → (t.bank k).array = (s.bank k).array)) ∧
    ((s.ctl.settings = none ∨ (∃ g, s.ctl.settings = some g ∧ g.waitLimit = 0) ∨
        ∀ b, ∀ sl ∈ (s.bank b).queue, sl.tag = tag → sl.state ≠ .waiting ∧ sl.state ≠ .held) →
      exec (.waitLimitExpiry tag) s = .refused .timerNotRunning)

/-- The release hold-off that runs out with H above N queues RELEASE, which takes the place of a pending RENEW; in SOLO the own
entry holds N at once. Where no hold-off runs the expiry is refused (log entry 3). That the expiry is taken at any value of
the hold-off is log entry 2, and that the SOLO entry keeps its age is log entry 13. -/
def Obligations.HoldOffExpiryGivesBackTheExcess : Prop :=
  ∀ s : State, s.heldInReset = false →
    (s.ctl.holdOff = none → exec .releaseHoldOffExpiry s = .refused .timerNotRunning) ∧
    (s.ctl.holdOff ≠ none → s.need < s.holding →
      (s.ctl.station ≠ .solo →
        exec .releaseHoldOffExpiry s = .next (State.settle { s with ctl := { s.ctl with
          holdOff := none, transmit := { s.ctl.transmit with release := true, renew := false } } })) ∧
      (s.ctl.station = .solo →
        ∃ table, exec .releaseHoldOffExpiry s =
            .next (State.settle { s with ctl := { s.ctl with holdOff := none, table := table } }) ∧
          table.entry s.ctl.id =
            { s.ctl.own with held := s.need, generation := s.ctl.own.generation + 1#4 } ∧
          ∀ k, k ≠ s.ctl.id → table.entry k = s.ctl.table.entry k))

/-- At L/2 a station that is IN_SERVICE or LEAVING, with a renewal timer that runs and an own entry that holds or waits, queues
RENEW unless a RELEASE is pending; at L it becomes LAPSED, its gate closes, and every bank whose host operation runs has a
pause order. The expiry moves a timer that stands below its limit to the limit (log entry 2), counted in units of 100 µs (log
entry 1). Elsewhere these timers do not run, and the expiry is refused (log entry 3). -/
def Obligations.RenewalAndLapseFollowTheTimer : Prop :=
  ∀ (s : State) (g : Settings) (n : Nat), s.heldInReset = false → s.ctl.settings = some g →
    ((s.ctl.station = .inService ∨ s.ctl.station = .leaving) → s.ctl.renewal = some n →
      (0 < s.ctl.own.held ∨ s.ctl.own.waiting ≠ none) →
      exec .renewalDue s = .next { s with ctl := { s.ctl with
        renewal := some (max (5 * g.lease) n)
        transmit := { s.ctl.transmit with renew := s.ctl.transmit.renew || !s.ctl.transmit.release } } } ∧
      exec .selfLeaseLapse s = .next (State.settle { s with ctl := { s.ctl with
        renewal := some (max (10 * g.lease) n), lapsed := true } }) ∧
      (∀ t, exec .selfLeaseLapse s = .next t →
        t.ctl.lapsed = true ∧ ∀ b, t.gateAdmits b = false ∧ ((t.bank b).hostRunning = true → (t.bank b).pauseOrder = true))) ∧
    ((s.ctl.station ≠ .inService ∧ s.ctl.station ≠ .leaving ∨ s.ctl.renewal = none ∨
        (s.ctl.own.held = 0 ∧ s.ctl.own.waiting = none)) →
      exec .renewalDue s = .refused .timerNotRunning ∧ exec .selfLeaseLapse s = .refused .timerNotRunning)

/-- When the last-heard age of an entry passes L, an IN_SERVICE station queues EVICT of it with the entry's generation, where it is
not the own entry, holds or waits, and has none pending; in any other state no EVICT is queued, and no field of any entry but
that age changes. The end of the learning window makes a LEARNING station IN_SERVICE, its CLAIM formed, with an EVICT pending
for exactly the silent entries that hold or wait where none was pending; outside LEARNING, or with no window open, it cannot
take place (log entry 3). An age that stands lower is moved past L (log entry 2), and the expiry is taken in every configured
state (log entry 31). -/
def Obligations.SilenceAndTheWindowQueueEvicts : Prop :=
  ∀ (s : State) (k : StationId), s.heldInReset = false →
    let e := s.ctl.table.entry k
    let active := 0 < e.held ∨ e.waiting ≠ none
    (s.ctl.settings = none → exec (.lastHeardAgeExpiry k) s = .refused .timerNotRunning) ∧
    (∀ g, s.ctl.settings = some g →
      ∃ t, exec (.lastHeardAgeExpiry k) s = .next t ∧
        t.ctl.table.entry k = { e with age := max e.age (10 * g.lease + 1) } ∧
        (∀ j, j ≠ k → t.ctl.table.entry j = s.ctl.table.entry j) ∧
        (s.ctl.station ≠ .inService → t.ctl.transmit = s.ctl.transmit) ∧
        (s.ctl.station = .inService → k ≠ s.ctl.id → active →
          (s.ctl.transmit.evict.entry k = none ∨ s.ctl.transmit.evict.entry k = some e.generation) →
          t.ctl.transmit.evict.entry k = some e.generation) ∧
        t.bank0 = s.bank0 ∧ t.bank1 = s.bank1 ∧ t.port = s.port ∧ t.link = s.link ∧ t.completions = s.completions ∧
        t.ctl.station = s.ctl.station ∧ t.inReset = s.inReset ∧ t.pending = s.pending) ∧
    (s.ctl.station = .learning → s.ctl.window ≠ none →
      ∃ t, exec .learningWindowEnd s = .next t ∧ t.ctl.station = .inService ∧ t.ctl.window = none ∧
        t.ctl.table = s.ctl.table ∧ t.port = s.port ∧ t.link = s.link ∧ t.ctl.renewal = s.ctl.renewal ∧
        t.ctl.transmit.hello = false ∧ t.ctl.transmit.claim = t.claimNeeded ∧
        (s.ctl.transmit.evict.entry k = none →
          t.ctl.transmit.evict.entry k =
            if k ≠ s.ctl.id ∧ s.ctl.leaseTicks < e.age ∧ active then some e.generation else none)) ∧
    ((s.ctl.station ≠ .learning ∨ s.ctl.window = none) →
      exec .learningWindowEnd s = .refused .timerNotRunning)

/-! ### The budget table -/

/-- The precedent waiter is the waiting entry of the highest wait level, of equals the lowest id, and there is none exactly where
nothing waits; the one other than a claimant is found among the other entries alone. The budget view reports the whole copy's,
or none. -/
def Obligations.PrecedentWaiterRanksFirst : Prop :=
  ∀ (t : PerStation Entry) (s : StationId),
    (precedentWaiter t = none ↔ ∀ k, (t.entry k).waiting = none) ∧
    (∀ p, precedentWaiter t = some p ↔ (t.entry p).waiting ≠ none ∧
      ∀ k, k ≠ p → (t.entry k).waiting ≠ none →
        (t.entry k).level < (t.entry p).level ∨ ((t.entry k).level = (t.entry p).level ∧ p.toNat < k.toNat)) ∧
    (precedentOther t s = none ↔ ∀ k, k ≠ s → (t.entry k).waiting = none) ∧
    (∀ p, precedentOther t s = some p ↔ p ≠ s ∧ (t.entry p).waiting ≠ none ∧
      ∀ k, k ≠ p → k ≠ s → (t.entry k).waiting ≠ none →
        (t.entry k).level < (t.entry p).level ∨ ((t.entry k).level = (t.entry p).level ∧ p.toNat < k.toNat)) ∧
    (otherWaiting t s = true ↔ ∃ k, k ≠ s ∧ (t.entry k).waiting ≠ none) ∧
    (∀ x : State, x.ctl.table = t → x.budgetView[5]? = some (match precedentWaiter t with
      | none => 0xFF#8
      | some k => BitVec.ofNat 8 k.toNat))

/-- The fit rule: a claim fits where it asks for no more than the copy records for its station, or for no more than is free and
no other waiter is better ranked, or one is and the claim leaves room for its shortfall. A claim that fits, once granted,
leaves a table total that was within B within B. -/
def Obligations.ClaimFitsByTheFitRule : Prop :=
  ∀ (budget : Nat) (t : PerStation Entry) (s : StationId) (q w : Nat),
    let others : Nat := ((stationIds.filter fun k => k ≠ s).map fun k => (t.entry k).held).sum
    (fits budget t s q w = true ↔
      q ≤ (t.entry s).held ∨
      (q + others ≤ budget ∧
        (precedentOther t s = none ∨
          ∃ p, precedentOther t s = some p ∧
            ((t.entry p).level < w ∨ (w = (t.entry p).level ∧ s.toNat < p.toNat) ∨
              q + (t.entry p).requested + others ≤ budget + (t.entry p).held)))) ∧
    (∀ level : BitVec 4, ∀ total : BitVec 8, fits budget t s total.toNat level.toNat = true →
      tableTotal t ≤ budget → tableTotal (applyFrame t s (.claim total level) false) ≤ budget)

/-- An applied frame's effect on its sender's entry, which becomes known with its age at 0: HELLO holds nothing and records the
nonce, a granted CLAIM holds q and a refused one waits at the raised level, RELEASE holds its total and ends only a wait it
covers, RENEW restates held and waiting, WITHDRAW ends the wait; each advances the generation by 1 and leaves every other
entry. -/
def Obligations.AppliedFrameChangesItsSendersEntry : Prop :=
  ∀ (t : PerStation Entry) (s : StationId) (objected : Bool),
    let e := t.entry s
    let after := fun p : Payload => (applyFrame t s p objected).entry s
    let next : Entry := { e with known := true, age := 0, generation := e.generation + 1#4 }
    (∀ nonce, after (.hello nonce) = { next with held := 0, waiting := none, nonce := some nonce }) ∧
    (∀ q w, objected = false → after (.claim q w) = { next with held := q.toNat, waiting := none }) ∧
    (∀ q w, objected = true → after (.claim q w) = { next with waiting := some ⟨q.toNat, min 15 (w.toNat + 1)⟩ }) ∧
    (∀ total, (e.waiting = none ∨ ∃ w, e.waiting = some w ∧ w.requested ≤ total.toNat) →
      after (.release total) = { next with held := total.toNat, waiting := none }) ∧
    (∀ total w, e.waiting = some w → total.toNat < w.requested →
      after (.release total) = { next with held := total.toNat }) ∧
    (∀ held q w, after (.renew held q w) = { next with
      held := held.toNat, waiting := if q = 0#8 then none else some ⟨q.toNat, w.toNat⟩ }) ∧
    (after .withdraw = { next with waiting := none }) ∧
    (∀ p k, k ≠ s → (∀ target g, p ≠ .evict target g) → (applyFrame t s p objected).entry k = t.entry k)

/-- By the operations that apply a frame and that examine the pending EVICTs after it: an applied EVICT is effective on its
target where the generations agree and the entry holds or waits, and then the entry holds nothing, waits for nothing and its
generation advances; otherwise it is stale. In every case the ages of target and sender restart and the sender is known, with
its held value, waiting field and generation as they were. After each applied frame an IN_SERVICE station keeps a pending EVICT
exactly where the target's generation is the one it carries and the target holds or waits, queues one with the present
generation where the target is silent beyond L and holds or waits, and never one of itself. -/
def Obligations.EvictsAreAppliedAndExamined : Prop :=
  ∀ (t : PerStation Entry) (target : StationId),
    let e := t.entry target
    let active := 0 < e.held ∨ e.waiting ≠ none
    (∀ (x : StationId) (g : BitVec 4) (objected : Bool), target ≠ x →
      let after := applyFrame t x (.evict target g) objected
      (e.generation = g → active →
        after.entry target = { e with held := 0, waiting := none, generation := e.generation + 1#4, age := 0 }) ∧
      ((e.generation ≠ g ∨ ¬ active) → after.entry target = { e with age := 0 }) ∧
      after.entry x = { t.entry x with known := true, age := 0 } ∧
      (∀ k, k ≠ target → k ≠ x → after.entry k = t.entry k)) ∧
    (∀ (lease : Nat) (own : StationId) (pending : PerStation (Option (BitVec 4))),
      let after := (examineEvicts lease own t pending).entry target
      (target = own → after = none) ∧
      (target ≠ own → active → pending.entry target = some e.generation → after = some e.generation) ∧
      (target ≠ own → active → pending.entry target ≠ some e.generation →
        after = if lease < e.age then some e.generation else none) ∧
      (target ≠ own → ¬ active → after = none))

/-! ### The budget bus -/

/-- The frame that a station sends is read by every other station of the same configuration as good, with its payload as sent,
for every kind and every value in range; its digest, station id and start bit are the sender's. A change of any one of the bits
1 to 49 of a sent frame is found by the check. A sender puts its frame on the line bit by bit to the end of the check field, as
long as every bit it read was the one it drove; out of frame a station drives nothing. A line of all dominant bits leaves the
check at 0 and is malformed and broken. -/
def Obligations.SentFrameIsReceivedAsSent : Prop :=
  (∀ (sender receiver : StationId) (digest : BitVec 8) (budget : Nat) (p : Payload),
    let line := frameLine sender digest p
    (sender ≠ receiver → p.inRange budget sender = true → receiveTests receiver digest budget line = .good p) ∧
    lineStation line = sender ∧ lineDigest line = digest ∧ lineCls line = p.cls ∧ lineKind line = p.kind ∧
    lineBit line 0 = false ∧ lineRejectDominant line = false ∧ lineObjectionDominant line = false ∧
    lineBroken line = false ∧
    (∀ k : Nat, 1 ≤ k → k ≤ 49 →
      receiveTests receiver digest budget (line ^^^ BitVec.twoPow 55 (54 - k)) = .badCheck)) ∧
  lineRemainder 0#55 = 0#8 ∧ lineBroken 0#55 = true ∧
  (∀ s : State, s.port.framing = .outOfFrame → s.drives = true) ∧
  (∀ (s : State) (heard : List Bool) (a : Attempt),
    s.port.framing = .inFrame heard → s.port.sending = some a → heard.length < 50 →
    ((∀ j b, heard[j]? = some b → b = lineBit a.line j) → s.drives = lineBit a.line heard.length) ∧
    ((∃ j b, heard[j]? = some b ∧ b ≠ lineBit a.line j) → s.drives = true)) ∧
  ∀ (own : StationId) (digest : BitVec 8) (budget : Nat), receiveTests own digest budget 0#55 = .malformed

/-- Of two frames that contend, the one of the lower class, or of the same class and the lower station id, prevails: at the first
of the arbitration bits where they differ it is dominant and the other recessive, and that bit lies in the class or the
station id field. -/
def Obligations.LowerClassThenLowerIdPrevails : Prop :=
  ∀ (s1 s2 : StationId) (d1 d2 : BitVec 8) (p1 p2 : Payload),
    (p1.cls.toNat < p2.cls.toNat ∨ (p1.cls = p2.cls ∧ s1.toNat < s2.toNat)) →
    let first := frameLine s1 d1 p1
    let second := frameLine s2 d2 p2
    ∃ k, firstDifference first second = some k ∧ k ≤ 6 ∧ lineBit first k = false ∧ lineBit second k = true

/-- At an idle bit a station on the bus that is not stuck and has no attempt open starts with the first of its frames that is
still wanted, RELEASE before RENEW before EVICT before WITHDRAW before CLAIM before HELLO, with its payload and check fixed
then; in LEAVING RELEASE carries 0, and neither EVICT nor CLAIM is sent. A RELEASE, RENEW, WITHDRAW or CLAIM that is no longer
wanted is removed and the next frame is taken, and a RENEW that came due while a removed RELEASE was pending is queued. A RENEW
with nothing to renew goes out or is removed by a free value (log entry 38). A station off the bus, stuck or with no idle
starts none and changes nothing (log entry 30), nor does one in reset (log entry 19). -/
def Obligations.AttemptStartsWithTheFirstWantedFrame : Prop :=
  ∀ s : State,
    let x := s.ctl.transmit
    let own := s.ctl.own
    let ready := s.heldInReset = false ∧ s.port.framing = .outOfFrame ∧ 6 ≤ s.port.recessiveCount ∧
      s.port.stuck = false ∧ s.port.sending = none
    let leaving := s.ctl.station = .leaving
    let releases := x.release = true ∧ (if leaving then 0 < s.holding else s.need < s.holding)
    let due := ∃ n, s.ctl.renewal = some n ∧ s.ctl.leaseTicks / 2 ≤ n
    let renews := (x.renew = true ∨ (x.release = true ∧ ¬ releases ∧ due)) ∧
      (0 < own.held ∨ own.waiting ≠ none ∨ (x.renew = true ∧ Config.emptyRenewIsSent = true))
    let withdraws := x.withdraw = true ∧ own.waiting ≠ none ∧ (leaving ∨ s.claimNeeded = false)
    let claims := x.claim = true ∧ s.claimNeeded = true
    let pruned := fun (t : State) (port : Port) =>
      t = { s with ctl := { s.ctl with transmit := t.ctl.transmit }, port := port } ∧
      t.ctl.transmit.hello = x.hello ∧ t.ctl.transmit.evict = x.evict ∧ (t.ctl.transmit.release = true ↔ releases) ∧
      (t.ctl.transmit.renew = true ↔ renews) ∧ (t.ctl.transmit.withdraw = true ↔ withdraws) ∧
      (t.ctl.transmit.claim = true ↔ claims)
    let starts := fun p : Payload => ∃ t, exec .attemptStart s = .next t ∧ pruned t { s.port with
      framing := .inFrame [], recessiveCount := 0, sending := some ⟨p, frameLine s.ctl.id s.ctl.digest p⟩ }
    let startsNone := ∃ t, exec .attemptStart s = .next t ∧ pruned t s.port
    (¬ ready ∨ s.ctl.station.onBus = false → exec .attemptStart s = .next s) ∧
    (ready → (s.ctl.station = .inService ∨ leaving) →
      (releases → starts (.release (BitVec.ofNat 8 (if leaving then 0 else s.need)))) ∧
      (¬ releases → renews → starts (.renew (BitVec.ofNat 8 own.held) (BitVec.ofNat 8 own.requested)
        (BitVec.ofNat 4 own.level))) ∧
      (¬ releases → ¬ renews → ¬ leaving → ∀ k g, x.evict.entry k = some g →
        (∀ j, j.toNat < k.toNat → x.evict.entry j = none) → starts (.evict k g)) ∧
      (¬ releases → ¬ renews → (leaving ∨ ∀ k, x.evict.entry k = none) →
        (withdraws → starts .withdraw) ∧
        (¬ withdraws → ¬ leaving → claims →
          starts (.claim (BitVec.ofNat 8 s.claimTotal) (BitVec.ofNat 4 own.level))) ∧
        (¬ withdraws → (leaving ∨ ¬ claims) → startsNone))) ∧
    (ready → s.ctl.station = .learning →
      (x.hello = true → starts (.hello s.ctl.nonce)) ∧ (x.hello = false → startsNone))

/-- Out of frame every recessive bit adds 1 to the recessive count, up to 16, where BUS_STUCK clears; every dominant bit
restarts it and adds 1 to the dominant count, up to 128, where BUS_STUCK is set. A dominant bit after at least 6 recessive ones
is a start bit for a station on the bus, and off the bus no bit is. So it is in every state but UNCONFIGURED and SOLO, where
nothing is counted, and out of reset (log entry 19). The line that stays dominant sets BUS_STUCK and the line that stays
recessive clears it, whatever frame it meets (log entry 21); while it is set no attempt starts. A frame off the bus touches the
bit counts and BUS_STUCK alone (log entry 26). -/
def Obligations.LineIsCountedOffTheBus : Prop :=
  ∀ (s : State) (n : Nat) (bits : List Bool) (bit : Bool),
    let p := s.port
    let still := s.heldInReset = true ∨ s.ctl.station = .unconfigured ∨ s.ctl.station = .solo
    let onBus := s.ctl.station.onBus = true
    let counts := fun (r d : Nat) (k : Bool) =>
      ({ s with port := { p with recessiveCount := r, dominantCount := d, stuck := k } } : State)
    (still → exec .busStuckSet s = .next s ∧ exec .busStuckClear s = .next s ∧ exec (.frameEnd n bits) s = .next s) ∧
    (∀ t, exec (.frameEnd n bits) s = .next t →
      exec (.frameEnd n (bits ++ [bit])) s = exec (.frameEnd 0 [bit]) t) ∧
    (¬ still →
      (¬ onBus → ∃ r d k, exec (.frameEnd n bits) s = .next (counts r d k)) ∧
      (¬ onBus ∨ (p.framing = .outOfFrame ∧ p.sending = none) →
        exec (.frameEnd 0 [true]) s =
          .next (counts (min 16 (p.recessiveCount + 1)) 0 (p.stuck && decide (p.recessiveCount + 1 < 16))) ∧
        (p.recessiveCount < 16 → exec .busStuckClear s = .next (counts 16 0 false))) ∧
      (¬ onBus ∨ (p.framing = .outOfFrame ∧ p.recessiveCount < 6) →
        exec (.frameEnd 0 [false]) s =
          .next (counts 0 (min 128 (p.dominantCount + 1)) (p.stuck || decide (128 ≤ p.dominantCount + 1))) ∧
        (p.dominantCount < 128 → exec .busStuckSet s = .next (counts 0 128 true))) ∧
      (onBus → p.framing = .outOfFrame → 6 ≤ p.recessiveCount →
        exec (.frameEnd 0 [false]) s = .next { s with port := { p with
          framing := .inFrame [false], recessiveCount := 0, dominantCount := min 128 (p.dominantCount + 1)
          stuck := p.stuck || decide (128 ≤ p.dominantCount + 1) } }) ∧
      (p.dominantCount < 128 →
        ∃ t, exec .busStuckSet s = .next t ∧ t.port.dominantCount = 128 ∧ t.port.stuck = true ∧
          exec .attemptStart t = .next t) ∧
      (p.recessiveCount < 16 →
        ∃ t, exec .busStuckClear s = .next t ∧ t.port.recessiveCount = 16 ∧ t.port.stuck = false ∧
          (onBus → t.port.framing = .outOfFrame))) ∧
    (p.stuck = true → exec .attemptStart s = .next s)

/-- A good frame, received from the idle bus or by a contender that lost, is applied with the objection slot as read where no
station rejects it, broken or not; where another rejects it, it is not. Unbroken it clears the reject run, and the rejection
run stays. The station leaves the reject slot alone, and drives the objection slot exactly where it is IN_SERVICE, the frame is
a CLAIM that does not fit its copy and none rejects it. DIVERGED is set, with its news where it was clear, exactly where the
station's own verdict on the CLAIM is not the wire's, or an IN_SERVICE or LEAVING one finds a RENEW of a known station with
another held value. A LEAVING station whose own entry then holds nothing and waits for nothing enters CONFIGURED. The judgement
stands from the end of the check field; a station that LEAVE has since made LEAVING leaves the objection slot alone (log entry
7) but still compares its judgement (log entry 39), and a slot that it drives it reads dominant (log entry 8). An attempt lost
in the class or id field stays open until the idle after. -/
def Obligations.GoodFrameIsAppliedAndJudged : Prop :=
  (∀ (s : State) (n : Nat) (line : Line) (p : Payload) (lost : Option (Attempt × Nat)),
    s.heldInReset = false → s.ctl.station.onBus = true → lineBit line 0 = false → s.port.rejectionRun < 16 →
    receiveTests s.ctl.id s.ctl.digest s.ctl.budget line = .good p →
    (match lost with
      | none => s.port.framing = .outOfFrame ∧ s.port.sending = none ∧ 6 ≤ s.port.recessiveCount + n
      | some (a, k) => s.port.framing = .inFrame [] ∧ s.port.sending = some a ∧ n = 0 ∧ 1 ≤ k ∧ k ≤ 49 ∧
          lineBit a.line k = true ∧ lineBit line k = false ∧ ∀ j, 1 ≤ j → j < k → lineBit a.line j = lineBit line j) →
    let sender := lineStation line
    let rejected := lineRejectDominant line = true
    let fit := fun q w => fits s.ctl.budget s.ctl.table sender q w
    let objects := s.ctl.station = .inService ∧ ¬ rejected ∧
      ∃ (q : BitVec 8) (w : BitVec 4), p = .claim q w ∧ fit q.toNat w.toNat = false
    let refusedThoughFit := s.ctl.station = .inService ∧ lineObjectionDominant line = true ∧
      ∃ (q : BitVec 8) (w : BitVec 4), p = .claim q w ∧ fit q.toNat w.toNat = true
    let renewDiffers := (s.ctl.station = .inService ∨ s.ctl.station = .leaving) ∧
      ∃ h q w, p = .renew h q w ∧ (s.ctl.table.entry sender).known = true ∧ (s.ctl.table.entry sender).held ≠ h.toNat
    let diverges := ¬ rejected ∧ (refusedThoughFit ∨ renewDiffers)
    ∃ t objected, exec (.frameEnd n ((List.range 55).map fun k => lineBit line k)) s = .next t ∧
      (objected = true ↔ lineObjectionDominant line = true ∨ objects) ∧
      (¬ rejected → t.ctl.table = applyFrame s.ctl.table sender p objected) ∧
      (rejected → t.ctl.table = s.ctl.table ∧ t.ctl.station = s.ctl.station ∧ t.ctl.lapsed = s.ctl.lapsed) ∧
      (diverges → t.ctl.diverged = true ∧
        t.link = { s.link with divergedNews := s.link.divergedNews || !s.ctl.diverged }) ∧
      (¬ diverges → t.ctl.diverged = s.ctl.diverged ∧ t.link = s.link) ∧
      (t.port.droveObjection = true ↔ objects) ∧ t.port.droveReject = false ∧
      t.port.rejectRun = (if lineBroken line then s.port.rejectRun else 0) ∧
      t.port.rejectionRun = s.port.rejectionRun ∧ t.port.framing = .outOfFrame ∧
      (lineBroken line = false → t.port.recessiveCount = 3) ∧ (lineBit line 54 = false → t.port.recessiveCount = 0) ∧
      (lost = none → t.port.sending = none) ∧
      (∀ a k, lost = some (a, k) → t.ctl.station = s.ctl.station →
        t.port.sending = if k ≤ 6 then some a else none) ∧
      t.ctl.renewal = s.ctl.renewal ∧ t.ctl.window = s.ctl.window ∧
      (s.ctl.station ≠ .leaving → t.ctl.station = s.ctl.station ∧ t.ctl.lapsed = s.ctl.lapsed) ∧
      (s.ctl.station = .leaving → ¬ rejected →
        t.ctl.station = if t.ctl.own.active then .leaving else .configured)) ∧
  ∀ (s : State) (heard : List Bool) (bit : Bool),
    s.heldInReset = false → s.ctl.station.onBus = true → s.port.framing = .inFrame heard →
    (heard.length = 50 →
      s.drives = !s.port.droveReject ∧
      ∃ d k, exec (.frameEnd 0 [bit]) s = .next { s with port := { s.port with
        framing := .inFrame (heard ++ [bit && s.drives]), dominantCount := d, stuck := k } }) ∧
    (heard.length = 51 →
      (s.drives = false ↔ heard[50]? = some true ∧ s.port.judgement = some false ∧ s.ctl.station = .inService) ∧
      ∃ d k, exec (.frameEnd 0 [bit]) s = .next { s with port := { s.port with
        framing := .inFrame (heard ++ [bit && s.drives]), droveObjection := !s.drives
        dominantCount := d, stuck := k } }) ∧
    (52 ≤ heard.length → s.drives = true) ∧
    (heard.length = 54 → s.port.sending = none → ∀ p,
      let line := lineOfBits (heard ++ [bit])
      receiveTests s.ctl.id s.ctl.digest s.ctl.budget line = .good p → lineRejectDominant line = false →
      s.port.rejectionRun < 16 → (∃ q w, p = .claim q w) →
      ∃ t, exec (.frameEnd 0 [bit]) s = .next t ∧
        t.ctl.table = applyFrame s.ctl.table (lineStation line) p (lineObjectionDominant line) ∧
        (t.ctl.diverged = true ↔
          s.ctl.diverged = true ∨ s.port.judgement = some (lineObjectionDominant line)))

/-- A frame that the station rejects, unbroken, is not applied and raises the reject run by 1; at 8 the station enters
RX_FAULT. An intact frame with the station's own id that it did not send, which is also what a contender that lost after the id
field finds, takes it to ID_CONFLICT, and one with a foreign digest to CONFIG_MISMATCH, where the frame is not broken: it is
not applied, the transmit set is emptied, the own entry holds nothing and waits for nothing at the same generation, LAPSED and
the window end, station news is raised, and every host operation that runs has a pause order. A broken frame that is not good
for this station changes neither state nor table nor run. The line is as the others drive it or as it is read: a station that
rejects reads the reject slot dominant (log entry 8). -/
def Obligations.RejectedAndForeignFramesAreNotApplied : Prop :=
  ∀ (s : State) (n : Nat) (line : Line) (lost : Option (Attempt × Nat)),
    s.heldInReset = false → s.ctl.station.onBus = true → lineBit line 0 = false →
    (match lost with
      | none => s.port.framing = .outOfFrame ∧ s.port.sending = none ∧ 6 ≤ s.port.recessiveCount + n
      | some (a, k) => s.port.framing = .inFrame [] ∧ s.port.sending = some a ∧ n = 0 ∧ 1 ≤ k ∧ k ≤ 49 ∧
          lineBit a.line k = true ∧ lineBit line k = false ∧ ∀ j, 1 ≤ j → j < k → lineBit a.line j = lineBit line j) →
    let run := exec (.frameEnd n ((List.range 55).map fun k => lineBit line k)) s
    let found := receiveTests s.ctl.id s.ctl.digest s.ctl.budget line
    let bad := found = .badCheck ∨ found = .malformed ∨ found = .outOfRange
    let faulted := fun (t : State) (f : StationState) =>
      t.ctl.station = f ∧ t.ctl.transmit = ⟨false, false, false, false, false, Vector.replicate 16 none⟩ ∧
        t.ctl.own = { s.ctl.own with held := 0, waiting := none } ∧
        (∀ k, k ≠ s.ctl.id → t.ctl.table.entry k = s.ctl.table.entry k) ∧
        t.ctl.lapsed = false ∧ t.ctl.window = none ∧ t.link = { s.link with stationNews := true } ∧
        t.port.sending = none ∧ t.port.droveObjection = false ∧ t.port.rejectionRun = s.port.rejectionRun ∧
        ∀ b, (t.bank b).hostRunning = true → (t.bank b).pauseOrder = true
    (bad → lineBroken line = false → s.port.rejectionRun < 16 →
      ∃ t, run = .next t ∧ t.port.droveReject = true ∧ t.port.droveObjection = false ∧
        t.port.rejectRun = min 8 (s.port.rejectRun + 1) ∧ t.port.rejectionRun = s.port.rejectionRun ∧
        (s.port.rejectRun < 7 → t.ctl.table = s.ctl.table ∧ t.ctl.station = s.ctl.station ∧ t.link = s.link ∧
          (∀ a k, lost = some (a, k) → t.port.sending = if k ≤ 6 then some a else none)) ∧
        (7 ≤ s.port.rejectRun → faulted t .rxFault)) ∧
    (found = .ownId → lineBroken line = false →
      ∃ t, run = .next t ∧ faulted t .idConflict ∧ t.port.droveReject = false ∧
        t.port.rejectRun = s.port.rejectRun) ∧
    (∀ a k, lost = some (a, k) → 7 ≤ k → lineStation a.line = s.ctl.id → found ≠ .badCheck → found ≠ .malformed →
      found = .ownId) ∧
    (found = .foreignDigest → lineBroken line = false →
      ∃ t, run = .next t ∧ faulted t .configMismatch ∧ t.port.droveReject = false ∧
        t.port.rejectRun = s.port.rejectRun) ∧
    ((∀ p, found ≠ .good p) → lineBroken line = true →
      ∃ t, run = .next t ∧ t.ctl.station = s.ctl.station ∧ t.ctl.table = s.ctl.table ∧
        (t.port.droveReject = true ↔ bad) ∧ t.port.droveObjection = false ∧
        t.port.rejectRun = s.port.rejectRun ∧ t.port.rejectionRun = s.port.rejectionRun ∧ t.link = s.link)

/-- A station that remained to the end of its frame's check field has it applied where no station rejects it, with the
objection slot dominant exactly where it reads so or the station is IN_SERVICE and finds its own CLAIM unfit (log entry 8): the
frame leaves the transmit set and a RENEW with it, and the set is tended, CLAIM exactly as needed (log entry 20), WITHDRAW and
RELEASE as the need asks, EVICTs examined; the rejection run is cleared where the frame is not broken, the renewal timer
restarts and LAPSED ends. RELEASE stands by the same rule where H still exceeds N after an own RELEASE (log entry 33). Where
the reject slot reads dominant, or where it drove dominant and read recessive, nothing is applied and, unbroken, the rejection
run rises; at 16 it enters TX_FAULT: the transmit set is emptied, the own entry holds nothing and waits for nothing at the same
generation, LAPSED and the window end, station news is raised, and every host operation that runs has a pause order. -/
def Obligations.OwnFrameIsAppliedOrCounted : Prop :=
  ∀ (s : State) (line : Line) (a : Attempt),
    s.heldInReset = false → s.ctl.station.onBus = true → s.port.framing = .inFrame [] → s.port.sending = some a →
    lineBit line 0 = false → s.port.rejectRun < 8 →
    let run := exec (.frameEnd 0 ((List.range 55).map fun k => lineBit line k)) s
    let x := s.ctl.transmit
    let sends := fun kind : BitVec 3 => a.payload.kind = kind
    let remained := ∀ k, 1 ≤ k → k ≤ 49 → lineBit a.line k = lineBit line k
    let faulted := ∃ k, 1 ≤ k ∧ k ≤ 49 ∧ lineBit a.line k = false ∧ lineBit line k = true ∧
      ∀ j, 1 ≤ j → j < k → lineBit a.line j = lineBit line j
    let fit := fun q w => fits s.ctl.budget s.ctl.table s.ctl.id q w
    let objects := s.ctl.station = .inService ∧
      ∃ (q : BitVec 8) (w : BitVec 4), a.payload = .claim q w ∧ fit q.toNat w.toNat = false
    let diverges := s.ctl.station = .inService ∧ lineObjectionDominant line = true ∧
      ∃ (q : BitVec 8) (w : BitVec 4), a.payload = .claim q w ∧ fit q.toNat w.toNat = true
    (remained → lineRejectDominant line = false →
      ∃ t objected, run = .next t ∧ (objected = true ↔ lineObjectionDominant line = true ∨ objects) ∧
        t.ctl.table = applyFrame s.ctl.table s.ctl.id a.payload objected ∧
        (t.port.droveObjection = true ↔ objects) ∧ t.port.droveReject = false ∧
        (diverges → t.ctl.diverged = true ∧
          t.link = { s.link with divergedNews := s.link.divergedNews || !s.ctl.diverged }) ∧
        (¬ diverges → t.ctl.diverged = s.ctl.diverged ∧ t.link = s.link) ∧
        t.port.rejectionRun = (if lineBroken line then s.port.rejectionRun else 0) ∧
        t.port.rejectRun = s.port.rejectRun ∧ t.port.sending = none ∧
        t.ctl.lapsed = false ∧ t.ctl.renewal = some 0 ∧
        t.ctl.window = (if sends 0#3 ∧ s.ctl.station = .learning then some 0 else s.ctl.window) ∧
        (s.ctl.station ≠ .leaving → t.ctl.station = s.ctl.station) ∧
        (s.ctl.station = .learning → t.ctl.transmit = ⟨x.hello && decide (¬ sends 0#3), x.claim && decide (¬ sends 1#3),
          x.release && decide (¬ sends 2#3), false, x.withdraw && decide (¬ sends 5#3), x.evict⟩) ∧
        (s.ctl.station = .inService →
          (t.ctl.transmit.hello = true ↔ x.hello = true ∧ ¬ sends 0#3) ∧ t.ctl.transmit.renew = false ∧
          t.ctl.transmit.claim = t.claimNeeded ∧
          (t.ctl.transmit.withdraw = true ↔
            (x.withdraw = true ∧ ¬ sends 5#3) ∨ (t.ctl.own.waiting ≠ none ∧ t.claimNeeded = false)) ∧
          (t.ctl.transmit.release = true ↔ (x.release = true ∧ ¬ sends 2#3) ∨
            (t.need < t.holding ∧ ∃ k, k ≠ s.ctl.id ∧ (t.ctl.table.entry k).waiting ≠ none)) ∧
          t.ctl.transmit.evict = examineEvicts s.ctl.leaseTicks s.ctl.id t.ctl.table x.evict) ∧
        (s.ctl.station = .leaving →
          (t.ctl.own.active = true → t.ctl.station = .leaving ∧ t.ctl.transmit =
            ⟨x.hello && decide (¬ sends 0#3), false, (x.release && decide (¬ sends 2#3)) || decide (0 < t.holding), false,
              (x.withdraw && decide (¬ sends 5#3)) || t.ctl.own.waiting.isSome, x.evict⟩) ∧
          (t.ctl.own.active = false → t.ctl.station = .configured ∧
            t.ctl.transmit = ⟨false, false, false, false, false, Vector.replicate 16 none⟩))) ∧
    ((remained ∧ lineRejectDominant line = true ∨ faulted) →
      ∃ t, run = .next t ∧ t.port.sending = none ∧ (t.port.droveReject = true ↔ faulted) ∧
        t.port.rejectRun = s.port.rejectRun ∧
        (lineBroken line = false → t.port.rejectionRun = min 16 (s.port.rejectionRun + 1)) ∧
        (lineBroken line = true → t.port.rejectionRun = s.port.rejectionRun) ∧
        ((s.port.rejectionRun < 15 ∨ lineBroken line = true) →
          t.ctl.table = s.ctl.table ∧ t.ctl.station = s.ctl.station) ∧
        (15 ≤ s.port.rejectionRun → lineBroken line = false →
          t.ctl.station = .txFault ∧ t.ctl.transmit = ⟨false, false, false, false, false, Vector.replicate 16 none⟩ ∧
            t.ctl.own = { s.ctl.own with held := 0, waiting := none } ∧
            (∀ k, k ≠ s.ctl.id → t.ctl.table.entry k = s.ctl.table.entry k) ∧
            t.ctl.lapsed = false ∧ t.ctl.window = none ∧ t.link = { s.link with stationNews := true } ∧
            t.port.framing = .outOfFrame ∧ t.port.droveObjection = false ∧
            ∀ b, (t.bank b).hostRunning = true → (t.bank b).pauseOrder = true))

/-! ### What every step keeps -/

/-- The state right after reset is sound: stores canonical, operation table sound, banks coherent, table within B, port quiet, and
nothing draws current beyond its budget. -/
def Obligations.ResetStateIsSound : Prop :=
  State.reset.canonical = true ∧ State.reset.tableSound = true ∧ State.reset.coherent = true ∧
    State.reset.withinBudget = true ∧ State.reset.quiet = true ∧ State.reset.drawsWithin = true ∧
    State.reset.attentionAsserted = false

/-- Every step keeps every store of the state in canonical form: the arrays, every page a bank holds, and the commands that wait
well formed. -/
def Obligations.EveryStepKeepsStoresCanonical : Prop :=
  ∀ s t : State, s.canonical = true → step s = .next t → t.canonical = true

/-- Every step keeps the operation table: at most 8 slots in use and 6 in a bank queue, no tag held twice, DONE slots in the
completion queue and there alone. -/
def Obligations.EveryStepKeepsTheOperationTable : Prop :=
  ∀ s t : State, s.tableSound = true → step s = .next t → t.tableSound = true

/-- Every step keeps the budget table, what runs and the frame being sent within B, and the configuration in its ranges, with the
digest of its B and L. -/
def Obligations.EveryStepKeepsTheTableWithinBudget : Prop :=
  ∀ s t : State, s.withinBudget = true → s.quiet = true → s.coherent = true → step s = .next t →
    t.withinBudget = true

/-- Every step keeps the transmit set to the kinds that the station's state may send, the port silent off the bus, LAPSED, the
learning window and the hold-off to the states that have them, the run counts and bit counts within their limits with BUS_STUCK
as they give it, and the framing position in the frame that is read. -/
def Obligations.EveryStepKeepsThePortQuiet : Prop :=
  ∀ s t : State, s.quiet = true → step s = .next t → t.quiet = true

/-- From a coherent state no step meets a fault, since a step that ends always finds the operation it belongs to, and every
step keeps the parts of each bank in agreement: queue and internal operation, step under way, pass, latch, open-block record
and pending slot, marks, map unit with what its scan has found, and sense latch; every set of marks stays one of the five. -/
def Obligations.EveryStepKeepsTheBanksCoherent : Prop :=
  ∀ s : State, s.coherent = true →
    (∀ f, step s ≠ .fault f) ∧ ∀ t, step s = .next t → t.coherent = true

/-- Every step keeps each running host operation under its budget: the gate admits its bank or its pause order stands, and in SOLO
what runs is within H and H within B. -/
def Obligations.EveryStepKeepsTheDrawWithinBudget : Prop :=
  ∀ s t : State, s.coherent = true → s.withinBudget = true → s.quiet = true → s.drawsWithin = true →
    step s = .next t → t.drawsWithin = true

/-- No host operation begins or goes on with a pulse or a sense unless the gate admits its bank: after a command that ended a
step of the bank, or that made its operation run, the gate admits the bank in the state that follows. A frame row is taken bit
by bit here: a row of many bits is its bits in turn (`Obligations.LineIsCountedOffTheBus`), and a later one of them may close
the gate again. -/
def Obligations.NoPulseBeginsBeyondTheBudget : Prop :=
  ∀ (s t : State) (c : Instr) (b : BankId),
    s.coherent = true → s.withinBudget = true → s.quiet = true → s.drawsWithin = true → s.heldInReset = false →
    (∀ n bits, c = .frameEnd n bits → n + bits.length ≤ 1) →
    exec c s = .next t → t.heldInReset = false → (t.bank b).hostRunning = true →
    ((endsStepOf b c = true ∧ (t.bank b).verifying = false) ∨ (s.bank b).hostRunning = false) →
    t.gateAdmits b = true
end

