-- ==== Sys2Proof/Laws/State.lean ====
section
/-! SUPPORT. What the small updates of the state leave and set: one lemma for each field of each update, so that no later
proof unfolds a record update. -/

namespace Sys2Proof.Machine


/-! ### One bank replaced -/

@[simp] theorem State.setBank_completions (s : State) (b : BankId) (bk : Bank) :
    (s.setBank b bk).completions = s.completions := by cases b <;> rfl

@[simp] theorem State.setBank_ctl (s : State) (b : BankId) (bk : Bank) :
    (s.setBank b bk).ctl = s.ctl := by cases b <;> rfl

@[simp] theorem State.setBank_port (s : State) (b : BankId) (bk : Bank) :
    (s.setBank b bk).port = s.port := by cases b <;> rfl

@[simp] theorem State.setBank_link (s : State) (b : BankId) (bk : Bank) :
    (s.setBank b bk).link = s.link := by cases b <;> rfl

@[simp] theorem State.setBank_inReset (s : State) (b : BankId) (bk : Bank) :
    (s.setBank b bk).inReset = s.inReset := by cases b <;> rfl

@[simp] theorem State.setBank_fresh (s : State) (b : BankId) (bk : Bank) :
    (s.setBank b bk).fresh = s.fresh := by cases b <;> rfl

@[simp] theorem State.setBank_pending (s : State) (b : BankId) (bk : Bank) :
    (s.setBank b bk).pending = s.pending := by cases b <;> rfl

@[simp] theorem State.setBank_wire (s : State) (b : BankId) (bk : Bank) :
    (s.setBank b bk).wire = s.wire := by cases b <;> rfl

@[simp] theorem State.setBank_bank (s : State) (b : BankId) (bk : Bank) :
    (s.setBank b bk).bank b = bk := by cases b <;> rfl

@[simp] theorem State.setBank_bank_other (s : State) (b : BankId) (bk : Bank) :
    (s.setBank b bk).bank (otherBank b) = s.bank (otherBank b) := by cases b <;> rfl

@[simp] theorem State.setBank_heldInReset (s : State) (b : BankId) (bk : Bank) :
    (s.setBank b bk).heldInReset = s.heldInReset := by cases b <;> rfl

@[simp] theorem otherBank_otherBank (b : BankId) :
    otherBank (otherBank b) = b := by cases b <;> rfl

@[simp] theorem State.setBank_bank_self (s : State) (b : BankId) :
    s.setBank b (s.bank b) = s := by cases b <;> rfl

@[simp] theorem State.setBank_setBank (s : State) (b : BankId) (x y : Bank) :
    (s.setBank b x).setBank b y = s.setBank b y := by cases b <;> rfl


/-! ### A bank's change takes effect -/

@[simp] theorem State.withTurn_ctl (s : State) (b : BankId) (t : Turn) :
    (s.withTurn b t).ctl = s.ctl := by cases b <;> rfl

@[simp] theorem State.withTurn_port (s : State) (b : BankId) (t : Turn) :
    (s.withTurn b t).port = s.port := by cases b <;> rfl

@[simp] theorem State.withTurn_link (s : State) (b : BankId) (t : Turn) :
    (s.withTurn b t).link = s.link := by cases b <;> rfl

@[simp] theorem State.withTurn_inReset (s : State) (b : BankId) (t : Turn) :
    (s.withTurn b t).inReset = s.inReset := by cases b <;> rfl

@[simp] theorem State.withTurn_fresh (s : State) (b : BankId) (t : Turn) :
    (s.withTurn b t).fresh = s.fresh := by cases b <;> rfl

@[simp] theorem State.withTurn_pending (s : State) (b : BankId) (t : Turn) :
    (s.withTurn b t).pending = s.pending := by cases b <;> rfl

@[simp] theorem State.withTurn_wire (s : State) (b : BankId) (t : Turn) :
    (s.withTurn b t).wire = s.wire := by cases b <;> rfl

@[simp] theorem State.withTurn_completions (s : State) (b : BankId) (t : Turn) :
    (s.withTurn b t).completions = s.completions ++ t.ended := rfl

@[simp] theorem State.withTurn_bank (s : State) (b : BankId) (t : Turn) :
    (s.withTurn b t).bank b = t.bank := by cases b <;> rfl

@[simp] theorem State.withTurn_bank_other (s : State) (b : BankId) (t : Turn) :
    (s.withTurn b t).bank (otherBank b) = s.bank (otherBank b) := by cases b <;> rfl


/-! ### The response of a command -/

@[simp] theorem State.answer_bank0 (s : State) (r : Response) :
    (s.answer r).bank0 = s.bank0 := rfl

@[simp] theorem State.answer_bank1 (s : State) (r : Response) :
    (s.answer r).bank1 = s.bank1 := rfl

@[simp] theorem State.answer_completions (s : State) (r : Response) :
    (s.answer r).completions = s.completions := rfl

@[simp] theorem State.answer_ctl (s : State) (r : Response) :
    (s.answer r).ctl = s.ctl := rfl

@[simp] theorem State.answer_port (s : State) (r : Response) :
    (s.answer r).port = s.port := rfl

@[simp] theorem State.answer_inReset (s : State) (r : Response) :
    (s.answer r).inReset = s.inReset := rfl

@[simp] theorem State.answer_fresh (s : State) (r : Response) :
    (s.answer r).fresh = s.fresh := rfl

@[simp] theorem State.answer_pending (s : State) (r : Response) :
    (s.answer r).pending = s.pending := rfl

@[simp] theorem State.answer_wire (s : State) (r : Response) :
    (s.answer r).wire = s.wire := rfl

@[simp] theorem State.answer_link_stationNews (s : State) (r : Response) :
    (s.answer r).link.stationNews = s.link.stationNews := rfl

@[simp] theorem State.answer_link_divergedNews (s : State) (r : Response) :
    (s.answer r).link.divergedNews = s.link.divergedNews := rfl

@[simp] theorem State.answer_link_mapNews0 (s : State) (r : Response) :
    (s.answer r).link.mapNews0 = s.link.mapNews0 := rfl

@[simp] theorem State.answer_link_mapNews1 (s : State) (r : Response) :
    (s.answer r).link.mapNews1 = s.link.mapNews1 := rfl

@[simp] theorem State.answer_link_resetTaken (s : State) (r : Response) :
    (s.answer r).link.resetTaken = s.link.resetTaken := rfl

@[simp] theorem State.answer_link_awaitRise (s : State) (r : Response) :
    (s.answer r).link.awaitRise = s.link.awaitRise := rfl

@[simp] theorem State.answer_bank (s : State) (r : Response) (b : BankId) :
    (s.answer r).bank b = s.bank b := by cases b <;> rfl

@[simp] theorem State.answerData_bank0 (s : State) (d : List Byte) :
    (s.answerData d).bank0 = s.bank0 := rfl

@[simp] theorem State.answerData_bank1 (s : State) (d : List Byte) :
    (s.answerData d).bank1 = s.bank1 := rfl

@[simp] theorem State.answerData_completions (s : State) (d : List Byte) :
    (s.answerData d).completions = s.completions := rfl

@[simp] theorem State.answerData_ctl (s : State) (d : List Byte) :
    (s.answerData d).ctl = s.ctl := rfl

@[simp] theorem State.answerData_port (s : State) (d : List Byte) :
    (s.answerData d).port = s.port := rfl

@[simp] theorem State.answerData_inReset (s : State) (d : List Byte) :
    (s.answerData d).inReset = s.inReset := rfl

@[simp] theorem State.answerData_fresh (s : State) (d : List Byte) :
    (s.answerData d).fresh = s.fresh := rfl

@[simp] theorem State.answerData_pending (s : State) (d : List Byte) :
    (s.answerData d).pending = s.pending := rfl

@[simp] theorem State.answerData_wire (s : State) (d : List Byte) :
    (s.answerData d).wire = s.wire := rfl

@[simp] theorem State.answerData_link_stationNews (s : State) (d : List Byte) :
    (s.answerData d).link.stationNews = s.link.stationNews := rfl

@[simp] theorem State.answerData_link_divergedNews (s : State) (d : List Byte) :
    (s.answerData d).link.divergedNews = s.link.divergedNews := rfl

@[simp] theorem State.answerData_link_mapNews0 (s : State) (d : List Byte) :
    (s.answerData d).link.mapNews0 = s.link.mapNews0 := rfl

@[simp] theorem State.answerData_link_mapNews1 (s : State) (d : List Byte) :
    (s.answerData d).link.mapNews1 = s.link.mapNews1 := rfl

@[simp] theorem State.answerData_link_resetTaken (s : State) (d : List Byte) :
    (s.answerData d).link.resetTaken = s.link.resetTaken := rfl

@[simp] theorem State.answerData_link_awaitRise (s : State) (d : List Byte) :
    (s.answerData d).link.awaitRise = s.link.awaitRise := rfl

@[simp] theorem State.answerData_bank (s : State) (d : List Byte) (b : BankId) :
    (s.answerData d).bank b = s.bank b := by cases b <;> rfl

@[simp] theorem State.answer_response (s : State) (r : Response) :
    (s.answer r).link.response = [r.code] := rfl

@[simp] theorem State.answerData_response (s : State) (d : List Byte) :
    (s.answerData d).link.response = 0x00#8 :: d := rfl


/-! ### Small updates of a bank -/

@[simp] theorem Bank.atRest_array (bk : Bank) :
    (bk.atRest).array = bk.array := rfl

@[simp] theorem Bank.atRest_queue (bk : Bank) :
    (bk.atRest).queue = bk.queue := rfl

@[simp] theorem Bank.atRest_internal (bk : Bank) :
    (bk.atRest).internal = bk.internal := rfl

@[simp] theorem Bank.atRest_pass (bk : Bank) :
    (bk.atRest).pass = bk.pass := rfl

@[simp] theorem Bank.atRest_passPulses (bk : Bank) :
    (bk.atRest).passPulses = bk.passPulses := rfl

@[simp] theorem Bank.atRest_staging (bk : Bank) :
    (bk.atRest).staging = bk.staging := rfl

@[simp] theorem Bank.atRest_latch (bk : Bank) :
    (bk.atRest).latch = bk.latch := rfl

@[simp] theorem Bank.atRest_pendingSlot (bk : Bank) :
    (bk.atRest).pendingSlot = bk.pendingSlot := rfl

@[simp] theorem Bank.atRest_openBlock (bk : Bank) :
    (bk.atRest).openBlock = bk.openBlock := rfl

@[simp] theorem Bank.atRest_senseLatch (bk : Bank) :
    (bk.atRest).senseLatch = bk.senseLatch := rfl

@[simp] theorem Bank.atRest_output (bk : Bank) :
    (bk.atRest).output = bk.output := rfl

@[simp] theorem Bank.atRest_retired (bk : Bank) :
    (bk.atRest).retired = bk.retired := rfl

@[simp] theorem Bank.atRest_mapState (bk : Bank) :
    (bk.atRest).mapState = bk.mapState := rfl

@[simp] theorem Bank.atRest_mapBlock (bk : Bank) :
    (bk.atRest).mapBlock = bk.mapBlock := rfl

@[simp] theorem Bank.atRest_nextMapPage (bk : Bank) :
    (bk.atRest).nextMapPage = bk.nextMapPage := rfl

@[simp] theorem Bank.atRest_mapSeq (bk : Bank) :
    (bk.atRest).mapSeq = bk.mapSeq := rfl

@[simp] theorem Bank.atRest_mapFailureRun (bk : Bank) :
    (bk.atRest).mapFailureRun = bk.mapFailureRun := rfl

@[simp] theorem Bank.atRest_step (bk : Bank) :
    (bk.atRest).step = none := rfl

@[simp] theorem Bank.atRest_pauseOrder (bk : Bank) :
    (bk.atRest).pauseOrder = false := rfl

@[simp] theorem Bank.dropOpenBlock_array (bk : Bank) :
    (bk.dropOpenBlock).array = bk.array := rfl

@[simp] theorem Bank.dropOpenBlock_queue (bk : Bank) :
    (bk.dropOpenBlock).queue = bk.queue := rfl

@[simp] theorem Bank.dropOpenBlock_internal (bk : Bank) :
    (bk.dropOpenBlock).internal = bk.internal := rfl

@[simp] theorem Bank.dropOpenBlock_step (bk : Bank) :
    (bk.dropOpenBlock).step = bk.step := rfl

@[simp] theorem Bank.dropOpenBlock_pass (bk : Bank) :
    (bk.dropOpenBlock).pass = bk.pass := rfl

@[simp] theorem Bank.dropOpenBlock_passPulses (bk : Bank) :
    (bk.dropOpenBlock).passPulses = bk.passPulses := rfl

@[simp] theorem Bank.dropOpenBlock_pauseOrder (bk : Bank) :
    (bk.dropOpenBlock).pauseOrder = bk.pauseOrder := rfl

@[simp] theorem Bank.dropOpenBlock_staging (bk : Bank) :
    (bk.dropOpenBlock).staging = bk.staging := rfl

@[simp] theorem Bank.dropOpenBlock_latch (bk : Bank) :
    (bk.dropOpenBlock).latch = bk.latch := rfl

@[simp] theorem Bank.dropOpenBlock_senseLatch (bk : Bank) :
    (bk.dropOpenBlock).senseLatch = bk.senseLatch := rfl

@[simp] theorem Bank.dropOpenBlock_output (bk : Bank) :
    (bk.dropOpenBlock).output = bk.output := rfl

@[simp] theorem Bank.dropOpenBlock_retired (bk : Bank) :
    (bk.dropOpenBlock).retired = bk.retired := rfl

@[simp] theorem Bank.dropOpenBlock_mapState (bk : Bank) :
    (bk.dropOpenBlock).mapState = bk.mapState := rfl

@[simp] theorem Bank.dropOpenBlock_mapBlock (bk : Bank) :
    (bk.dropOpenBlock).mapBlock = bk.mapBlock := rfl

@[simp] theorem Bank.dropOpenBlock_nextMapPage (bk : Bank) :
    (bk.dropOpenBlock).nextMapPage = bk.nextMapPage := rfl

@[simp] theorem Bank.dropOpenBlock_mapSeq (bk : Bank) :
    (bk.dropOpenBlock).mapSeq = bk.mapSeq := rfl

@[simp] theorem Bank.dropOpenBlock_mapFailureRun (bk : Bank) :
    (bk.dropOpenBlock).mapFailureRun = bk.mapFailureRun := rfl

@[simp] theorem Bank.dropOpenBlock_openBlock (bk : Bank) :
    (bk.dropOpenBlock).openBlock = none := rfl

@[simp] theorem Bank.dropOpenBlock_pendingSlot (bk : Bank) :
    (bk.dropOpenBlock).pendingSlot = none := rfl

@[simp] theorem Bank.dropStores_array (bk : Bank) :
    (bk.dropStores).array = bk.array := rfl

@[simp] theorem Bank.dropStores_queue (bk : Bank) :
    (bk.dropStores).queue = bk.queue := rfl

@[simp] theorem Bank.dropStores_internal (bk : Bank) :
    (bk.dropStores).internal = bk.internal := rfl

@[simp] theorem Bank.dropStores_step (bk : Bank) :
    (bk.dropStores).step = bk.step := rfl

@[simp] theorem Bank.dropStores_pauseOrder (bk : Bank) :
    (bk.dropStores).pauseOrder = bk.pauseOrder := rfl

@[simp] theorem Bank.dropStores_staging (bk : Bank) :
    (bk.dropStores).staging = bk.staging := rfl

@[simp] theorem Bank.dropStores_senseLatch (bk : Bank) :
    (bk.dropStores).senseLatch = bk.senseLatch := rfl

@[simp] theorem Bank.dropStores_output (bk : Bank) :
    (bk.dropStores).output = bk.output := rfl

@[simp] theorem Bank.dropStores_retired (bk : Bank) :
    (bk.dropStores).retired = bk.retired := rfl

@[simp] theorem Bank.dropStores_mapState (bk : Bank) :
    (bk.dropStores).mapState = bk.mapState := rfl

@[simp] theorem Bank.dropStores_mapBlock (bk : Bank) :
    (bk.dropStores).mapBlock = bk.mapBlock := rfl

@[simp] theorem Bank.dropStores_nextMapPage (bk : Bank) :
    (bk.dropStores).nextMapPage = bk.nextMapPage := rfl

@[simp] theorem Bank.dropStores_mapSeq (bk : Bank) :
    (bk.dropStores).mapSeq = bk.mapSeq := rfl

@[simp] theorem Bank.dropStores_mapFailureRun (bk : Bank) :
    (bk.dropStores).mapFailureRun = bk.mapFailureRun := rfl

@[simp] theorem Bank.dropStores_openBlock (bk : Bank) :
    (bk.dropStores).openBlock = none := rfl

@[simp] theorem Bank.dropStores_pendingSlot (bk : Bank) :
    (bk.dropStores).pendingSlot = none := rfl

@[simp] theorem Bank.dropStores_latch (bk : Bank) :
    (bk.dropStores).latch = none := rfl

@[simp] theorem Bank.dropStores_pass (bk : Bank) :
    (bk.dropStores).pass = none := rfl

@[simp] theorem Bank.dropStores_passPulses (bk : Bank) :
    (bk.dropStores).passPulses = 0 := rfl

@[simp] theorem Bank.nextPass_array (bk : Bank) (p : Pass) :
    (bk.nextPass p).array = bk.array := rfl

@[simp] theorem Bank.nextPass_queue (bk : Bank) (p : Pass) :
    (bk.nextPass p).queue = bk.queue := rfl

@[simp] theorem Bank.nextPass_internal (bk : Bank) (p : Pass) :
    (bk.nextPass p).internal = bk.internal := rfl

@[simp] theorem Bank.nextPass_step (bk : Bank) (p : Pass) :
    (bk.nextPass p).step = bk.step := rfl

@[simp] theorem Bank.nextPass_pauseOrder (bk : Bank) (p : Pass) :
    (bk.nextPass p).pauseOrder = bk.pauseOrder := rfl

@[simp] theorem Bank.nextPass_staging (bk : Bank) (p : Pass) :
    (bk.nextPass p).staging = bk.staging := rfl

@[simp] theorem Bank.nextPass_latch (bk : Bank) (p : Pass) :
    (bk.nextPass p).latch = bk.latch := rfl

@[simp] theorem Bank.nextPass_pendingSlot (bk : Bank) (p : Pass) :
    (bk.nextPass p).pendingSlot = bk.pendingSlot := rfl

@[simp] theorem Bank.nextPass_openBlock (bk : Bank) (p : Pass) :
    (bk.nextPass p).openBlock = bk.openBlock := rfl

@[simp] theorem Bank.nextPass_senseLatch (bk : Bank) (p : Pass) :
    (bk.nextPass p).senseLatch = bk.senseLatch := rfl

@[simp] theorem Bank.nextPass_output (bk : Bank) (p : Pass) :
    (bk.nextPass p).output = bk.output := rfl

@[simp] theorem Bank.nextPass_retired (bk : Bank) (p : Pass) :
    (bk.nextPass p).retired = bk.retired := rfl

@[simp] theorem Bank.nextPass_mapState (bk : Bank) (p : Pass) :
    (bk.nextPass p).mapState = bk.mapState := rfl

@[simp] theorem Bank.nextPass_mapBlock (bk : Bank) (p : Pass) :
    (bk.nextPass p).mapBlock = bk.mapBlock := rfl

@[simp] theorem Bank.nextPass_nextMapPage (bk : Bank) (p : Pass) :
    (bk.nextPass p).nextMapPage = bk.nextMapPage := rfl

@[simp] theorem Bank.nextPass_mapSeq (bk : Bank) (p : Pass) :
    (bk.nextPass p).mapSeq = bk.mapSeq := rfl

@[simp] theorem Bank.nextPass_mapFailureRun (bk : Bank) (p : Pass) :
    (bk.nextPass p).mapFailureRun = bk.mapFailureRun := rfl

@[simp] theorem Bank.nextPass_pass (bk : Bank) (p : Pass) :
    (bk.nextPass p).pass = some p := rfl

@[simp] theorem Bank.nextPass_passPulses (bk : Bank) (p : Pass) :
    (bk.nextPass p).passPulses = 0 := rfl

@[simp] theorem Bank.passDone_queue (bk : Bank) (sl : Slot) (p : Pass) :
    (bk.passDone sl p).queue = bk.queue := rfl

@[simp] theorem Bank.passDone_internal (bk : Bank) (sl : Slot) (p : Pass) :
    (bk.passDone sl p).internal = bk.internal := rfl

@[simp] theorem Bank.passDone_step (bk : Bank) (sl : Slot) (p : Pass) :
    (bk.passDone sl p).step = bk.step := rfl

@[simp] theorem Bank.passDone_pass (bk : Bank) (sl : Slot) (p : Pass) :
    (bk.passDone sl p).pass = bk.pass := rfl

@[simp] theorem Bank.passDone_passPulses (bk : Bank) (sl : Slot) (p : Pass) :
    (bk.passDone sl p).passPulses = bk.passPulses := rfl

@[simp] theorem Bank.passDone_pauseOrder (bk : Bank) (sl : Slot) (p : Pass) :
    (bk.passDone sl p).pauseOrder = bk.pauseOrder := rfl

@[simp] theorem Bank.passDone_staging (bk : Bank) (sl : Slot) (p : Pass) :
    (bk.passDone sl p).staging = bk.staging := rfl

@[simp] theorem Bank.passDone_latch (bk : Bank) (sl : Slot) (p : Pass) :
    (bk.passDone sl p).latch = bk.latch := rfl

@[simp] theorem Bank.passDone_pendingSlot (bk : Bank) (sl : Slot) (p : Pass) :
    (bk.passDone sl p).pendingSlot = bk.pendingSlot := rfl

@[simp] theorem Bank.passDone_openBlock (bk : Bank) (sl : Slot) (p : Pass) :
    (bk.passDone sl p).openBlock = bk.openBlock := rfl

@[simp] theorem Bank.passDone_senseLatch (bk : Bank) (sl : Slot) (p : Pass) :
    (bk.passDone sl p).senseLatch = bk.senseLatch := rfl

@[simp] theorem Bank.passDone_output (bk : Bank) (sl : Slot) (p : Pass) :
    (bk.passDone sl p).output = bk.output := rfl

@[simp] theorem Bank.passDone_retired (bk : Bank) (sl : Slot) (p : Pass) :
    (bk.passDone sl p).retired = bk.retired := rfl

@[simp] theorem Bank.passDone_mapState (bk : Bank) (sl : Slot) (p : Pass) :
    (bk.passDone sl p).mapState = bk.mapState := rfl

@[simp] theorem Bank.passDone_mapBlock (bk : Bank) (sl : Slot) (p : Pass) :
    (bk.passDone sl p).mapBlock = bk.mapBlock := rfl

@[simp] theorem Bank.passDone_nextMapPage (bk : Bank) (sl : Slot) (p : Pass) :
    (bk.passDone sl p).nextMapPage = bk.nextMapPage := rfl

@[simp] theorem Bank.passDone_mapSeq (bk : Bank) (sl : Slot) (p : Pass) :
    (bk.passDone sl p).mapSeq = bk.mapSeq := rfl

@[simp] theorem Bank.passDone_mapFailureRun (bk : Bank) (sl : Slot) (p : Pass) :
    (bk.passDone sl p).mapFailureRun = bk.mapFailureRun := rfl

@[simp] theorem Bank.freeOutput_array (bk : Bank) :
    (bk.freeOutput).array = bk.array := rfl

@[simp] theorem Bank.freeOutput_queue (bk : Bank) :
    (bk.freeOutput).queue = bk.queue := rfl

@[simp] theorem Bank.freeOutput_internal (bk : Bank) :
    (bk.freeOutput).internal = bk.internal := rfl

@[simp] theorem Bank.freeOutput_step (bk : Bank) :
    (bk.freeOutput).step = bk.step := rfl

@[simp] theorem Bank.freeOutput_pass (bk : Bank) :
    (bk.freeOutput).pass = bk.pass := rfl

@[simp] theorem Bank.freeOutput_passPulses (bk : Bank) :
    (bk.freeOutput).passPulses = bk.passPulses := rfl

@[simp] theorem Bank.freeOutput_pauseOrder (bk : Bank) :
    (bk.freeOutput).pauseOrder = bk.pauseOrder := rfl

@[simp] theorem Bank.freeOutput_staging (bk : Bank) :
    (bk.freeOutput).staging = bk.staging := rfl

@[simp] theorem Bank.freeOutput_latch (bk : Bank) :
    (bk.freeOutput).latch = bk.latch := rfl

@[simp] theorem Bank.freeOutput_pendingSlot (bk : Bank) :
    (bk.freeOutput).pendingSlot = bk.pendingSlot := rfl

@[simp] theorem Bank.freeOutput_openBlock (bk : Bank) :
    (bk.freeOutput).openBlock = bk.openBlock := rfl

@[simp] theorem Bank.freeOutput_senseLatch (bk : Bank) :
    (bk.freeOutput).senseLatch = bk.senseLatch := rfl

@[simp] theorem Bank.freeOutput_retired (bk : Bank) :
    (bk.freeOutput).retired = bk.retired := rfl

@[simp] theorem Bank.freeOutput_mapState (bk : Bank) :
    (bk.freeOutput).mapState = bk.mapState := rfl

@[simp] theorem Bank.freeOutput_mapBlock (bk : Bank) :
    (bk.freeOutput).mapBlock = bk.mapBlock := rfl

@[simp] theorem Bank.freeOutput_nextMapPage (bk : Bank) :
    (bk.freeOutput).nextMapPage = bk.nextMapPage := rfl

@[simp] theorem Bank.freeOutput_mapSeq (bk : Bank) :
    (bk.freeOutput).mapSeq = bk.mapSeq := rfl

@[simp] theorem Bank.freeOutput_mapFailureRun (bk : Bank) :
    (bk.freeOutput).mapFailureRun = bk.mapFailureRun := rfl

@[simp] theorem Bank.tick_array (bk : Bank) :
    (bk.tick).array = bk.array := rfl

@[simp] theorem Bank.tick_internal (bk : Bank) :
    (bk.tick).internal = bk.internal := rfl

@[simp] theorem Bank.tick_step (bk : Bank) :
    (bk.tick).step = bk.step := rfl

@[simp] theorem Bank.tick_pass (bk : Bank) :
    (bk.tick).pass = bk.pass := rfl

@[simp] theorem Bank.tick_passPulses (bk : Bank) :
    (bk.tick).passPulses = bk.passPulses := rfl

@[simp] theorem Bank.tick_pauseOrder (bk : Bank) :
    (bk.tick).pauseOrder = bk.pauseOrder := rfl

@[simp] theorem Bank.tick_staging (bk : Bank) :
    (bk.tick).staging = bk.staging := rfl

@[simp] theorem Bank.tick_latch (bk : Bank) :
    (bk.tick).latch = bk.latch := rfl

@[simp] theorem Bank.tick_pendingSlot (bk : Bank) :
    (bk.tick).pendingSlot = bk.pendingSlot := rfl

@[simp] theorem Bank.tick_openBlock (bk : Bank) :
    (bk.tick).openBlock = bk.openBlock := rfl

@[simp] theorem Bank.tick_senseLatch (bk : Bank) :
    (bk.tick).senseLatch = bk.senseLatch := rfl

@[simp] theorem Bank.tick_output (bk : Bank) :
    (bk.tick).output = bk.output := rfl

@[simp] theorem Bank.tick_retired (bk : Bank) :
    (bk.tick).retired = bk.retired := rfl

@[simp] theorem Bank.tick_mapState (bk : Bank) :
    (bk.tick).mapState = bk.mapState := rfl

@[simp] theorem Bank.tick_mapBlock (bk : Bank) :
    (bk.tick).mapBlock = bk.mapBlock := rfl

@[simp] theorem Bank.tick_nextMapPage (bk : Bank) :
    (bk.tick).nextMapPage = bk.nextMapPage := rfl

@[simp] theorem Bank.tick_mapSeq (bk : Bank) :
    (bk.tick).mapSeq = bk.mapSeq := rfl

@[simp] theorem Bank.tick_mapFailureRun (bk : Bank) :
    (bk.tick).mapFailureRun = bk.mapFailureRun := rfl

@[simp] theorem Bank.restartWaits_array (bk : Bank) :
    (bk.restartWaits).array = bk.array := rfl

@[simp] theorem Bank.restartWaits_internal (bk : Bank) :
    (bk.restartWaits).internal = bk.internal := rfl

@[simp] theorem Bank.restartWaits_step (bk : Bank) :
    (bk.restartWaits).step = bk.step := rfl

@[simp] theorem Bank.restartWaits_pass (bk : Bank) :
    (bk.restartWaits).pass = bk.pass := rfl

@[simp] theorem Bank.restartWaits_passPulses (bk : Bank) :
    (bk.restartWaits).passPulses = bk.passPulses := rfl

@[simp] theorem Bank.restartWaits_pauseOrder (bk : Bank) :
    (bk.restartWaits).pauseOrder = bk.pauseOrder := rfl

@[simp] theorem Bank.restartWaits_staging (bk : Bank) :
    (bk.restartWaits).staging = bk.staging := rfl

@[simp] theorem Bank.restartWaits_latch (bk : Bank) :
    (bk.restartWaits).latch = bk.latch := rfl

@[simp] theorem Bank.restartWaits_pendingSlot (bk : Bank) :
    (bk.restartWaits).pendingSlot = bk.pendingSlot := rfl

@[simp] theorem Bank.restartWaits_openBlock (bk : Bank) :
    (bk.restartWaits).openBlock = bk.openBlock := rfl

@[simp] theorem Bank.restartWaits_senseLatch (bk : Bank) :
    (bk.restartWaits).senseLatch = bk.senseLatch := rfl

@[simp] theorem Bank.restartWaits_output (bk : Bank) :
    (bk.restartWaits).output = bk.output := rfl

@[simp] theorem Bank.restartWaits_retired (bk : Bank) :
    (bk.restartWaits).retired = bk.retired := rfl

@[simp] theorem Bank.restartWaits_mapState (bk : Bank) :
    (bk.restartWaits).mapState = bk.mapState := rfl

@[simp] theorem Bank.restartWaits_mapBlock (bk : Bank) :
    (bk.restartWaits).mapBlock = bk.mapBlock := rfl

@[simp] theorem Bank.restartWaits_nextMapPage (bk : Bank) :
    (bk.restartWaits).nextMapPage = bk.nextMapPage := rfl

@[simp] theorem Bank.restartWaits_mapSeq (bk : Bank) :
    (bk.restartWaits).mapSeq = bk.mapSeq := rfl

@[simp] theorem Bank.restartWaits_mapFailureRun (bk : Bank) :
    (bk.restartWaits).mapFailureRun = bk.mapFailureRun := rfl

@[simp] theorem Bank.loadStaging_array (bk : Bank) (p : Position) (o : Nat) (d : List Byte) :
    (bk.loadStaging p o d).array = bk.array := rfl

@[simp] theorem Bank.loadStaging_queue (bk : Bank) (p : Position) (o : Nat) (d : List Byte) :
    (bk.loadStaging p o d).queue = bk.queue := rfl

@[simp] theorem Bank.loadStaging_internal (bk : Bank) (p : Position) (o : Nat) (d : List Byte) :
    (bk.loadStaging p o d).internal = bk.internal := rfl

@[simp] theorem Bank.loadStaging_step (bk : Bank) (p : Position) (o : Nat) (d : List Byte) :
    (bk.loadStaging p o d).step = bk.step := rfl

@[simp] theorem Bank.loadStaging_pass (bk : Bank) (p : Position) (o : Nat) (d : List Byte) :
    (bk.loadStaging p o d).pass = bk.pass := rfl

@[simp] theorem Bank.loadStaging_passPulses (bk : Bank) (p : Position) (o : Nat) (d : List Byte) :
    (bk.loadStaging p o d).passPulses = bk.passPulses := rfl

@[simp] theorem Bank.loadStaging_pauseOrder (bk : Bank) (p : Position) (o : Nat) (d : List Byte) :
    (bk.loadStaging p o d).pauseOrder = bk.pauseOrder := rfl

@[simp] theorem Bank.loadStaging_latch (bk : Bank) (p : Position) (o : Nat) (d : List Byte) :
    (bk.loadStaging p o d).latch = bk.latch := rfl

@[simp] theorem Bank.loadStaging_pendingSlot (bk : Bank) (p : Position) (o : Nat) (d : List Byte) :
    (bk.loadStaging p o d).pendingSlot = bk.pendingSlot := rfl

@[simp] theorem Bank.loadStaging_openBlock (bk : Bank) (p : Position) (o : Nat) (d : List Byte) :
    (bk.loadStaging p o d).openBlock = bk.openBlock := rfl

@[simp] theorem Bank.loadStaging_senseLatch (bk : Bank) (p : Position) (o : Nat) (d : List Byte) :
    (bk.loadStaging p o d).senseLatch = bk.senseLatch := rfl

@[simp] theorem Bank.loadStaging_output (bk : Bank) (p : Position) (o : Nat) (d : List Byte) :
    (bk.loadStaging p o d).output = bk.output := rfl

@[simp] theorem Bank.loadStaging_retired (bk : Bank) (p : Position) (o : Nat) (d : List Byte) :
    (bk.loadStaging p o d).retired = bk.retired := rfl

@[simp] theorem Bank.loadStaging_mapState (bk : Bank) (p : Position) (o : Nat) (d : List Byte) :
    (bk.loadStaging p o d).mapState = bk.mapState := rfl

@[simp] theorem Bank.loadStaging_mapBlock (bk : Bank) (p : Position) (o : Nat) (d : List Byte) :
    (bk.loadStaging p o d).mapBlock = bk.mapBlock := rfl

@[simp] theorem Bank.loadStaging_nextMapPage (bk : Bank) (p : Position) (o : Nat) (d : List Byte) :
    (bk.loadStaging p o d).nextMapPage = bk.nextMapPage := rfl

@[simp] theorem Bank.loadStaging_mapSeq (bk : Bank) (p : Position) (o : Nat) (d : List Byte) :
    (bk.loadStaging p o d).mapSeq = bk.mapSeq := rfl

@[simp] theorem Bank.loadStaging_mapFailureRun (bk : Bank) (p : Position) (o : Nat) (d : List Byte) :
    (bk.loadStaging p o d).mapFailureRun = bk.mapFailureRun := rfl


/-! ### An operation that ends -/

@[simp] theorem Bank.endSlot_queue (bk : Bank) (sl : Slot) (o : OpOutcome) (f : RecordFlags) :
    (bk.endSlot sl o f).bank.queue = removeTag sl.tag bk.queue := rfl

@[simp] theorem Bank.endSlot_ended (bk : Bank) (sl : Slot) (o : OpOutcome) (f : RecordFlags) :
    (bk.endSlot sl o f).ended = [sl.finish o f] := rfl

@[simp] theorem Bank.endSlot_array (bk : Bank) (sl : Slot) (o : OpOutcome) (f : RecordFlags) :
    (bk.endSlot sl o f).bank.array = bk.array := rfl

@[simp] theorem Bank.endSlot_internal (bk : Bank) (sl : Slot) (o : OpOutcome) (f : RecordFlags) :
    (bk.endSlot sl o f).bank.internal = bk.internal := rfl

@[simp] theorem Bank.endSlot_step (bk : Bank) (sl : Slot) (o : OpOutcome) (f : RecordFlags) :
    (bk.endSlot sl o f).bank.step = bk.step := rfl

@[simp] theorem Bank.endSlot_pass (bk : Bank) (sl : Slot) (o : OpOutcome) (f : RecordFlags) :
    (bk.endSlot sl o f).bank.pass = bk.pass := rfl

@[simp] theorem Bank.endSlot_passPulses (bk : Bank) (sl : Slot) (o : OpOutcome) (f : RecordFlags) :
    (bk.endSlot sl o f).bank.passPulses = bk.passPulses := rfl

@[simp] theorem Bank.endSlot_pauseOrder (bk : Bank) (sl : Slot) (o : OpOutcome) (f : RecordFlags) :
    (bk.endSlot sl o f).bank.pauseOrder = bk.pauseOrder := rfl

@[simp] theorem Bank.endSlot_staging (bk : Bank) (sl : Slot) (o : OpOutcome) (f : RecordFlags) :
    (bk.endSlot sl o f).bank.staging = bk.staging := rfl

@[simp] theorem Bank.endSlot_latch (bk : Bank) (sl : Slot) (o : OpOutcome) (f : RecordFlags) :
    (bk.endSlot sl o f).bank.latch = bk.latch := rfl

@[simp] theorem Bank.endSlot_pendingSlot (bk : Bank) (sl : Slot) (o : OpOutcome) (f : RecordFlags) :
    (bk.endSlot sl o f).bank.pendingSlot = bk.pendingSlot := rfl

@[simp] theorem Bank.endSlot_openBlock (bk : Bank) (sl : Slot) (o : OpOutcome) (f : RecordFlags) :
    (bk.endSlot sl o f).bank.openBlock = bk.openBlock := rfl

@[simp] theorem Bank.endSlot_senseLatch (bk : Bank) (sl : Slot) (o : OpOutcome) (f : RecordFlags) :
    (bk.endSlot sl o f).bank.senseLatch = bk.senseLatch := rfl

@[simp] theorem Bank.endSlot_output (bk : Bank) (sl : Slot) (o : OpOutcome) (f : RecordFlags) :
    (bk.endSlot sl o f).bank.output = bk.output := rfl

@[simp] theorem Bank.endSlot_retired (bk : Bank) (sl : Slot) (o : OpOutcome) (f : RecordFlags) :
    (bk.endSlot sl o f).bank.retired = bk.retired := rfl

@[simp] theorem Bank.endSlot_mapState (bk : Bank) (sl : Slot) (o : OpOutcome) (f : RecordFlags) :
    (bk.endSlot sl o f).bank.mapState = bk.mapState := rfl

@[simp] theorem Bank.endSlot_mapBlock (bk : Bank) (sl : Slot) (o : OpOutcome) (f : RecordFlags) :
    (bk.endSlot sl o f).bank.mapBlock = bk.mapBlock := rfl

@[simp] theorem Bank.endSlot_nextMapPage (bk : Bank) (sl : Slot) (o : OpOutcome) (f : RecordFlags) :
    (bk.endSlot sl o f).bank.nextMapPage = bk.nextMapPage := rfl

@[simp] theorem Bank.endSlot_mapSeq (bk : Bank) (sl : Slot) (o : OpOutcome) (f : RecordFlags) :
    (bk.endSlot sl o f).bank.mapSeq = bk.mapSeq := rfl

@[simp] theorem Bank.endSlot_mapFailureRun (bk : Bank) (sl : Slot) (o : OpOutcome) (f : RecordFlags) :
    (bk.endSlot sl o f).bank.mapFailureRun = bk.mapFailureRun := rfl

@[simp] theorem Slot.finish_tag (sl : Slot) (o : OpOutcome) (f : RecordFlags) :
    (sl.finish o f).slot.tag = sl.tag := rfl

@[simp] theorem Slot.finish_state (sl : Slot) (o : OpOutcome) (f : RecordFlags) :
    (sl.finish o f).slot.state = .done := rfl

@[simp] theorem Slot.finish_outcome (sl : Slot) (o : OpOutcome) (f : RecordFlags) :
    (sl.finish o f).record.outcome = o := rfl

@[simp] theorem Slot.finish_recordTag (sl : Slot) (o : OpOutcome) (f : RecordFlags) :
    (sl.finish o f).record.tag = sl.tag := rfl

@[simp] theorem Turn.of_bank (bk : Bank) :
    (Turn.of bk).bank = bk := rfl

@[simp] theorem Turn.of_ended (bk : Bank) :
    (Turn.of bk).ended = [] := rfl


/-! ### Small updates of the budget controller -/

@[simp] theorem Controller.setOwn_station (c : Controller) (e : Entry) :
    (c.setOwn e).station = c.station := rfl

@[simp] theorem Controller.renewalAt_station (c : Controller) (n : Nat) :
    (c.renewalAt n).station = c.station := rfl

@[simp] theorem Controller.tendLeaving_station (c : Controller) :
    c.tendLeaving.station = c.station := rfl

@[simp] theorem Controller.tendEvicts_station (c : Controller) :
    c.tendEvicts.station = c.station := by
  unfold Controller.tendEvicts; split <;> rfl

@[simp] theorem Controller.ownFrame_station (c : Controller) (p : Payload) :
    (c.ownFrame p).station = c.station := rfl

@[simp] theorem Controller.setOwn_id (c : Controller) (e : Entry) :
    (c.setOwn e).id = c.id := rfl

@[simp] theorem Controller.renewalAt_id (c : Controller) (n : Nat) :
    (c.renewalAt n).id = c.id := rfl

@[simp] theorem Controller.tendLeaving_id (c : Controller) :
    c.tendLeaving.id = c.id := rfl

@[simp] theorem Controller.tendEvicts_id (c : Controller) :
    c.tendEvicts.id = c.id := by
  unfold Controller.tendEvicts; split <;> rfl

@[simp] theorem Controller.ownFrame_id (c : Controller) (p : Payload) :
    (c.ownFrame p).id = c.id := rfl

@[simp] theorem Controller.setOwn_nonce (c : Controller) (e : Entry) :
    (c.setOwn e).nonce = c.nonce := rfl

@[simp] theorem Controller.renewalAt_nonce (c : Controller) (n : Nat) :
    (c.renewalAt n).nonce = c.nonce := rfl

@[simp] theorem Controller.tendLeaving_nonce (c : Controller) :
    c.tendLeaving.nonce = c.nonce := rfl

@[simp] theorem Controller.tendEvicts_nonce (c : Controller) :
    c.tendEvicts.nonce = c.nonce := by
  unfold Controller.tendEvicts; split <;> rfl

@[simp] theorem Controller.ownFrame_nonce (c : Controller) (p : Payload) :
    (c.ownFrame p).nonce = c.nonce := rfl

@[simp] theorem Controller.setOwn_settings (c : Controller) (e : Entry) :
    (c.setOwn e).settings = c.settings := rfl

@[simp] theorem Controller.renewalAt_settings (c : Controller) (n : Nat) :
    (c.renewalAt n).settings = c.settings := rfl

@[simp] theorem Controller.tendLeaving_settings (c : Controller) :
    c.tendLeaving.settings = c.settings := rfl

@[simp] theorem Controller.tendEvicts_settings (c : Controller) :
    c.tendEvicts.settings = c.settings := by
  unfold Controller.tendEvicts; split <;> rfl

@[simp] theorem Controller.ownFrame_settings (c : Controller) (p : Payload) :
    (c.ownFrame p).settings = c.settings := rfl

@[simp] theorem Controller.setOwn_digest (c : Controller) (e : Entry) :
    (c.setOwn e).digest = c.digest := rfl

@[simp] theorem Controller.renewalAt_digest (c : Controller) (n : Nat) :
    (c.renewalAt n).digest = c.digest := rfl

@[simp] theorem Controller.tendLeaving_digest (c : Controller) :
    c.tendLeaving.digest = c.digest := rfl

@[simp] theorem Controller.tendEvicts_digest (c : Controller) :
    c.tendEvicts.digest = c.digest := by
  unfold Controller.tendEvicts; split <;> rfl

@[simp] theorem Controller.ownFrame_digest (c : Controller) (p : Payload) :
    (c.ownFrame p).digest = c.digest := rfl

@[simp] theorem Controller.renewalAt_table (c : Controller) (n : Nat) :
    (c.renewalAt n).table = c.table := rfl

@[simp] theorem Controller.tendLeaving_table (c : Controller) :
    c.tendLeaving.table = c.table := rfl

@[simp] theorem Controller.tendEvicts_table (c : Controller) :
    c.tendEvicts.table = c.table := by
  unfold Controller.tendEvicts; split <;> rfl

@[simp] theorem Controller.ownFrame_table (c : Controller) (p : Payload) :
    (c.ownFrame p).table = c.table := rfl

@[simp] theorem Controller.setOwn_transmit (c : Controller) (e : Entry) :
    (c.setOwn e).transmit = c.transmit := rfl

@[simp] theorem Controller.renewalAt_transmit (c : Controller) (n : Nat) :
    (c.renewalAt n).transmit = c.transmit := rfl

@[simp] theorem Controller.setOwn_renewal (c : Controller) (e : Entry) :
    (c.setOwn e).renewal = c.renewal := rfl

@[simp] theorem Controller.tendLeaving_renewal (c : Controller) :
    c.tendLeaving.renewal = c.renewal := rfl

@[simp] theorem Controller.tendEvicts_renewal (c : Controller) :
    c.tendEvicts.renewal = c.renewal := by
  unfold Controller.tendEvicts; split <;> rfl

@[simp] theorem Controller.setOwn_lapsed (c : Controller) (e : Entry) :
    (c.setOwn e).lapsed = c.lapsed := rfl

@[simp] theorem Controller.renewalAt_lapsed (c : Controller) (n : Nat) :
    (c.renewalAt n).lapsed = c.lapsed := rfl

@[simp] theorem Controller.tendLeaving_lapsed (c : Controller) :
    c.tendLeaving.lapsed = c.lapsed := rfl

@[simp] theorem Controller.tendEvicts_lapsed (c : Controller) :
    c.tendEvicts.lapsed = c.lapsed := by
  unfold Controller.tendEvicts; split <;> rfl

@[simp] theorem Controller.setOwn_holdOff (c : Controller) (e : Entry) :
    (c.setOwn e).holdOff = c.holdOff := rfl

@[simp] theorem Controller.renewalAt_holdOff (c : Controller) (n : Nat) :
    (c.renewalAt n).holdOff = c.holdOff := rfl

@[simp] theorem Controller.tendEvicts_holdOff (c : Controller) :
    c.tendEvicts.holdOff = c.holdOff := by
  unfold Controller.tendEvicts; split <;> rfl

@[simp] theorem Controller.ownFrame_holdOff (c : Controller) (p : Payload) :
    (c.ownFrame p).holdOff = c.holdOff := rfl

@[simp] theorem Controller.setOwn_window (c : Controller) (e : Entry) :
    (c.setOwn e).window = c.window := rfl

@[simp] theorem Controller.renewalAt_window (c : Controller) (n : Nat) :
    (c.renewalAt n).window = c.window := rfl

@[simp] theorem Controller.tendLeaving_window (c : Controller) :
    c.tendLeaving.window = c.window := rfl

@[simp] theorem Controller.tendEvicts_window (c : Controller) :
    c.tendEvicts.window = c.window := by
  unfold Controller.tendEvicts; split <;> rfl

@[simp] theorem Controller.setOwn_diverged (c : Controller) (e : Entry) :
    (c.setOwn e).diverged = c.diverged := rfl

@[simp] theorem Controller.renewalAt_diverged (c : Controller) (n : Nat) :
    (c.renewalAt n).diverged = c.diverged := rfl

@[simp] theorem Controller.tendLeaving_diverged (c : Controller) :
    c.tendLeaving.diverged = c.diverged := rfl

@[simp] theorem Controller.tendEvicts_diverged (c : Controller) :
    c.tendEvicts.diverged = c.diverged := by
  unfold Controller.tendEvicts; split <;> rfl

@[simp] theorem Controller.ownFrame_diverged (c : Controller) (p : Payload) :
    (c.ownFrame p).diverged = c.diverged := rfl

@[simp] theorem PerStation.entry_put {α : Type} (t : PerStation α) (k : StationId) (x : α) :
    (t.put k x).entry k = x := by
  simp [PerStation.entry, PerStation.put]

theorem PerStation.entry_put_other {α : Type} (t : PerStation α) {j k : StationId} (h : j ≠ k) (x : α) :
    (t.put k x).entry j = t.entry j := by
  have h' : k.toNat ≠ j.toNat := fun e => h (BitVec.eq_of_toNat_eq e.symm)
  simp [PerStation.entry, PerStation.put, h']

@[simp] theorem Controller.setOwn_own (c : Controller) (e : Entry) :
    (c.setOwn e).own = e := by
  simp [Controller.own, Controller.setOwn]


/-! ### Small updates of the port -/

@[simp] theorem Port.countDominant_framing (p : Port) (r : Bool) :
    (p.countDominant r).framing = p.framing := by cases r <;> rfl

@[simp] theorem Port.countRecessive_framing (p : Port) (r : Bool) :
    (p.countRecessive r).framing = p.framing := by cases r <;> rfl

@[simp] theorem Port.outBit_framing (p : Port) (r : Bool) :
    (p.outBit r).framing = p.framing := by cases r <;> rfl

@[simp] theorem Port.abandon_recessiveCount (p : Port) :
    p.abandon.recessiveCount = p.recessiveCount := rfl

@[simp] theorem Port.countDominant_recessiveCount (p : Port) (r : Bool) :
    (p.countDominant r).recessiveCount = p.recessiveCount := by cases r <;> rfl

@[simp] theorem Port.abandon_dominantCount (p : Port) :
    p.abandon.dominantCount = p.dominantCount := rfl

@[simp] theorem Port.countRecessive_dominantCount (p : Port) (r : Bool) :
    (p.countRecessive r).dominantCount = p.dominantCount := by cases r <;> rfl

@[simp] theorem Port.abandon_stuck (p : Port) :
    p.abandon.stuck = p.stuck := rfl

@[simp] theorem Port.countDominant_sending (p : Port) (r : Bool) :
    (p.countDominant r).sending = p.sending := by cases r <;> rfl

@[simp] theorem Port.countRecessive_sending (p : Port) (r : Bool) :
    (p.countRecessive r).sending = p.sending := by cases r <;> rfl

@[simp] theorem Port.outBit_sending (p : Port) (r : Bool) :
    (p.outBit r).sending = p.sending := by cases r <;> rfl

@[simp] theorem Port.abandon_rejectionRun (p : Port) :
    p.abandon.rejectionRun = p.rejectionRun := rfl

@[simp] theorem Port.countDominant_rejectionRun (p : Port) (r : Bool) :
    (p.countDominant r).rejectionRun = p.rejectionRun := by cases r <;> rfl

@[simp] theorem Port.countRecessive_rejectionRun (p : Port) (r : Bool) :
    (p.countRecessive r).rejectionRun = p.rejectionRun := by cases r <;> rfl

@[simp] theorem Port.outBit_rejectionRun (p : Port) (r : Bool) :
    (p.outBit r).rejectionRun = p.rejectionRun := by cases r <;> rfl

@[simp] theorem Port.abandon_rejectRun (p : Port) :
    p.abandon.rejectRun = p.rejectRun := rfl

@[simp] theorem Port.countDominant_rejectRun (p : Port) (r : Bool) :
    (p.countDominant r).rejectRun = p.rejectRun := by cases r <;> rfl

@[simp] theorem Port.countRecessive_rejectRun (p : Port) (r : Bool) :
    (p.countRecessive r).rejectRun = p.rejectRun := by cases r <;> rfl

@[simp] theorem Port.outBit_rejectRun (p : Port) (r : Bool) :
    (p.outBit r).rejectRun = p.rejectRun := by cases r <;> rfl

@[simp] theorem Port.abandon_droveReject (p : Port) :
    p.abandon.droveReject = p.droveReject := rfl

@[simp] theorem Port.countDominant_droveReject (p : Port) (r : Bool) :
    (p.countDominant r).droveReject = p.droveReject := by cases r <;> rfl

@[simp] theorem Port.countRecessive_droveReject (p : Port) (r : Bool) :
    (p.countRecessive r).droveReject = p.droveReject := by cases r <;> rfl

@[simp] theorem Port.outBit_droveReject (p : Port) (r : Bool) :
    (p.outBit r).droveReject = p.droveReject := by cases r <;> rfl

@[simp] theorem Port.abandon_droveObjection (p : Port) :
    p.abandon.droveObjection = p.droveObjection := rfl

@[simp] theorem Port.abandon_judgement (p : Port) :
    p.abandon.judgement = p.judgement := rfl

@[simp] theorem Port.countDominant_droveObjection (p : Port) (r : Bool) :
    (p.countDominant r).droveObjection = p.droveObjection := by cases r <;> rfl

@[simp] theorem Port.countDominant_judgement (p : Port) (r : Bool) :
    (p.countDominant r).judgement = p.judgement := by cases r <;> rfl

@[simp] theorem Port.countRecessive_droveObjection (p : Port) (r : Bool) :
    (p.countRecessive r).droveObjection = p.droveObjection := by cases r <;> rfl

@[simp] theorem Port.countRecessive_judgement (p : Port) (r : Bool) :
    (p.countRecessive r).judgement = p.judgement := by cases r <;> rfl

@[simp] theorem Port.outBit_droveObjection (p : Port) (r : Bool) :
    (p.outBit r).droveObjection = p.droveObjection := by cases r <;> rfl

@[simp] theorem Port.outBit_judgement (p : Port) (r : Bool) :
    (p.outBit r).judgement = p.judgement := by cases r <;> rfl

@[simp] theorem Port.abandon_sending (p : Port) :
    p.abandon.sending = none := rfl

@[simp] theorem Port.abandon_framing (p : Port) :
    p.abandon.framing = .outOfFrame := rfl


end Sys2Proof.Machine
end

