-- ==== Sys2Proof/Laws/Settle.lean ====
section
/-! SUPPORT. Everything that settling a change can do: the frames of the start points, of the gate, of the pause orders and
of the transmit set's upkeep, each said once. -/

namespace Sys2Proof.Machine

/-! ### The front of a bank -/

/-- What a start point or a READ's completion can change of a bank: its queue, its sense latch and its output buffer. -/
def Bank.SameButReads (bk u : Bank) : Prop :=
  ∃ q r o, u = { bk with queue := q, senseLatch := r, output := o }

theorem Bank.SameButReads.refl (bk : Bank) : bk.SameButReads bk := ⟨bk.queue, bk.senseLatch, bk.output, rfl⟩

theorem Bank.SameButReads.trans {a b c : Bank} (h : a.SameButReads b) (k : b.SameButReads c) : a.SameButReads c := by
  obtain ⟨q, r, o, rfl⟩ := h
  obtain ⟨q', r', o', rfl⟩ := k
  exact ⟨q', r', o', rfl⟩

theorem Bank.startPoint_same (bk : Bank) (sl : Slot) : bk.SameButReads (bk.startPoint sl).bank := by
  unfold Bank.startPoint
  split <;> exact ⟨_, _, _, rfl⟩

theorem Bank.servePending_same {bk : Bank} {sl : Slot} {u : Turn} (h : bk.servePending sl = some u) :
    bk.SameButReads u.bank := by
  unfold Bank.servePending at h
  split at h
  · split at h
    · cases h; exact ⟨_, _, _, rfl⟩
    · cases h
  all_goals cases h

theorem Bank.completeWaiting_same {bk : Bank} {sl : Slot} {u : Turn} (h : bk.completeWaiting sl = some u) :
    bk.SameButReads u.bank := by
  unfold Bank.completeWaiting at h
  split at h
  · cases h
  · split at h
    · cases h; exact ⟨_, _, _, rfl⟩
    · cases h

/-- Everything that can happen at once at the front of a bank: a start point of a QUEUED head, a pending-path READ served,
a READ in OUTPUT_WAIT completed, or a candidate taken by a SUSPENDED ERASE. -/
theorem Bank.advanceStep_cases {bk : Bank} {u : Turn} (h : bk.advanceStep = some u) :
    bk.internal = none ∧ ∃ sl behind, bk.queue = sl :: behind ∧
      ((sl.state = .queued ∧ u = bk.startPoint sl) ∨
       (sl.state = .waiting ∧ bk.servePending sl = some u) ∨
       (sl.state = .outputWait ∧ bk.completeWaiting sl = some u) ∨
       (sl.state = .suspended ∧ ∃ r, overtaker behind = some r ∧ bk.servePending r = some u) ∨
       (sl.state = .suspended ∧ overtaker behind = none ∧ bk.outputFree = true ∧
          ∃ r, candidate sl.block behind = some r ∧ u = bk.startPoint r)) := by
  unfold Bank.advanceStep at h
  split at h
  · cases h
  · rename_i hi
    refine ⟨by simpa using hi, ?_⟩
    split at h
    · cases h
    · rename_i sl behind hq
      refine ⟨sl, behind, hq, ?_⟩
      split at h
      · exact .inl ⟨‹_›, by cases h; rfl⟩
      · exact .inr (.inl ⟨‹_›, h⟩)
      · exact .inr (.inr (.inl ⟨‹_›, h⟩))
      · split at h
        · exact .inr (.inr (.inr (.inl ⟨‹_›, _, ‹_›, h⟩)))
        · split at h
          · split at h
            · exact .inr (.inr (.inr (.inr ⟨‹_›, ‹_›, ‹_›, _, ‹_›, by cases h; rfl⟩)))
            · cases h
          · cases h
      all_goals cases h

theorem Bank.advanceStep_same {bk : Bank} {u : Turn} (h : bk.advanceStep = some u) : bk.SameButReads u.bank := by
  obtain ⟨-, sl, behind, -, hc⟩ := Bank.advanceStep_cases h
  rcases hc with ⟨-, rfl⟩ | ⟨-, h⟩ | ⟨-, h⟩ | ⟨-, r, -, h⟩ | ⟨-, -, -, r, -, rfl⟩
  · exact Bank.startPoint_same bk sl
  · exact Bank.servePending_same h
  · exact Bank.completeWaiting_same h
  · exact Bank.servePending_same h
  · exact Bank.startPoint_same bk r

/-- All that follows at the front of a bank changes its queue, sense latch and output buffer alone. -/
theorem Bank.advance_same (n : Nat) (t : Turn) : t.bank.SameButReads (Bank.advance n t).bank := by
  induction n generalizing t with
  | zero => exact .refl _
  | succ n ih =>
    unfold Bank.advance
    split
    · exact .refl _
    · rename_i u hu
      exact (Bank.advanceStep_same hu).trans (ih ⟨u.bank, t.ended ++ u.ended⟩)

/-- What has ended before stays ended, ahead of what ends now. -/
theorem Bank.advance_ended (n : Nat) (t : Turn) : ∃ more, (Bank.advance n t).ended = t.ended ++ more := by
  induction n generalizing t with
  | zero => exact ⟨[], by simp [Bank.advance]⟩
  | succ n ih =>
    unfold Bank.advance
    split
    · exact ⟨[], by simp⟩
    · rename_i u hu
      obtain ⟨more, h⟩ := ih ⟨u.bank, t.ended ++ u.ended⟩
      exact ⟨u.ended ++ more, by simp [h, List.append_assoc]⟩

/-! ### The gate's admissions -/

/-- What an admission can change of a bank: everything but what the map unit, the READs and the pause orders keep. -/
def Bank.SameButFront (bk u : Bank) : Prop :=
  ∃ a q i st p n sg l ps ob, u = { bk with
    array := a, queue := q, internal := i, step := st, pass := p, passPulses := n, staging := sg, latch := l
    pendingSlot := ps, openBlock := ob }

theorem Bank.SameButFront.refl (bk : Bank) : bk.SameButFront bk :=
  ⟨_, _, _, _, _, _, _, _, _, _, rfl⟩

theorem Bank.firstCoarsePulse_same (bk : Bank) (sl : Slot) (w : Nat) : bk.SameButFront (bk.firstCoarsePulse sl w) :=
  ⟨_, _, _, _, _, _, _, _, _, _, rfl⟩

theorem Bank.passPulse_same (bk : Bank) (sl : Slot) (p : Pass) : bk.SameButFront (bk.passPulse sl p) :=
  ⟨_, _, _, _, _, _, _, _, _, _, rfl⟩

theorem Bank.beginSense_same (bk : Bank) (sl : Slot) (u : SenseUse) : bk.SameButFront (bk.beginSense sl u) :=
  ⟨_, _, _, _, _, _, _, _, _, _, rfl⟩

theorem Bank.erasePulse_same (bk : Bank) (sl : Slot) : bk.SameButFront (bk.erasePulse sl) :=
  ⟨_, _, _, _, _, _, _, _, _, _, rfl⟩

theorem Bank.nextPulse_same (bk : Bank) (sl : Slot) : bk.SameButFront (bk.nextPulse sl) := by
  unfold Bank.nextPulse
  split
  · exact .refl _
  · split
    · exact Bank.firstCoarsePulse_same _ _ _
    · exact Bank.passPulse_same _ _ _
  · split
    · exact .refl _
    · exact Bank.passPulse_same _ _ _
  · exact Bank.erasePulse_same _ _

theorem Bank.beginHost_same (bk : Bank) (sl : Slot) : bk.SameButFront (bk.beginHost sl) := by
  unfold Bank.beginHost
  split
  · exact Bank.beginSense_same _ _ _
  · split
    · exact Bank.beginSense_same _ _ _
    · exact Bank.firstCoarsePulse_same _ _ _
  · split
    · exact .refl _
    · exact ⟨_, _, _, _, _, _, _, _, _, _, rfl⟩
  · exact Bank.erasePulse_same _ _

theorem Bank.beginInternal_same (bk : Bank) (op : InternalOp) : bk.SameButFront (bk.beginInternal op) := by
  unfold Bank.beginInternal
  split <;> exact ⟨_, _, _, _, _, _, _, _, _, _, rfl⟩

theorem Bank.proceed_same (bk : Bank) : bk.SameButFront bk.proceed := by
  unfold Bank.proceed
  split
  · exact Bank.beginInternal_same _ _
  · split
    · exact .refl _
    · split
      · exact Bank.beginHost_same _ _
      · exact Bank.nextPulse_same _ _
      · split
        · exact Bank.beginSense_same _ _ _
        · exact Bank.nextPulse_same _ _
      all_goals exact .refl _

/-- A bank tried at the gate is left as it was, or proceeds while it waits and the gate admits it. -/
theorem State.tryBank_cases (s : State) (b : BankId) :
    s.tryBank b = s ∨
      ((s.bank b).isWaiting = true ∧ s.gateAdmits b = true ∧ s.tryBank b = s.setBank b (s.bank b).proceed) := by
  unfold State.tryBank
  split
  · rename_i h
    simp only [Bool.and_eq_true] at h
    exact .inr ⟨h.1, h.2, rfl⟩
  · exact .inl rfl

@[simp] theorem State.tryBank_completions (s : State) (b : BankId) :
    (s.tryBank b).completions = s.completions := by
  rcases State.tryBank_cases s b with h | ⟨-, -, h⟩ <;> simp [h]

@[simp] theorem State.tryBanks_completions (s : State) :
    s.tryBanks.completions = s.completions := by
  simp [State.tryBanks]

@[simp] theorem State.noteWaiting_completions (s : State) :
    s.noteWaiting.completions = s.completions := rfl

@[simp] theorem State.orderPause_completions (s : State) (b : BankId) :
    (s.orderPause b).completions = s.completions := by
  unfold State.orderPause; split <;> simp

@[simp] theorem State.orderPauses_completions (s : State) :
    s.orderPauses.completions = s.completions := by
  simp [State.orderPauses]

@[simp] theorem State.tryBank_ctl (s : State) (b : BankId) :
    (s.tryBank b).ctl = s.ctl := by
  rcases State.tryBank_cases s b with h | ⟨-, -, h⟩ <;> simp [h]

@[simp] theorem State.tryBanks_ctl (s : State) :
    s.tryBanks.ctl = s.ctl := by
  simp [State.tryBanks]

@[simp] theorem State.advanceBank_ctl (s : State) (b : BankId) :
    (s.advanceBank b).ctl = s.ctl := by
  simp [State.advanceBank]

@[simp] theorem State.advanceBanks_ctl (s : State) :
    s.advanceBanks.ctl = s.ctl := by
  simp [State.advanceBanks]

@[simp] theorem State.noteWaiting_ctl (s : State) :
    s.noteWaiting.ctl = s.ctl := rfl

@[simp] theorem State.orderPause_ctl (s : State) (b : BankId) :
    (s.orderPause b).ctl = s.ctl := by
  unfold State.orderPause; split <;> simp

@[simp] theorem State.orderPauses_ctl (s : State) :
    s.orderPauses.ctl = s.ctl := by
  simp [State.orderPauses]

@[simp] theorem State.tryBank_port (s : State) (b : BankId) :
    (s.tryBank b).port = s.port := by
  rcases State.tryBank_cases s b with h | ⟨-, -, h⟩ <;> simp [h]

@[simp] theorem State.tryBanks_port (s : State) :
    s.tryBanks.port = s.port := by
  simp [State.tryBanks]

@[simp] theorem State.advanceBank_port (s : State) (b : BankId) :
    (s.advanceBank b).port = s.port := by
  simp [State.advanceBank]

@[simp] theorem State.advanceBanks_port (s : State) :
    s.advanceBanks.port = s.port := by
  simp [State.advanceBanks]

@[simp] theorem State.noteWaiting_port (s : State) :
    s.noteWaiting.port = s.port := rfl

@[simp] theorem State.orderPause_port (s : State) (b : BankId) :
    (s.orderPause b).port = s.port := by
  unfold State.orderPause; split <;> simp

@[simp] theorem State.orderPauses_port (s : State) :
    s.orderPauses.port = s.port := by
  simp [State.orderPauses]

@[simp] theorem State.tryBank_link (s : State) (b : BankId) :
    (s.tryBank b).link = s.link := by
  rcases State.tryBank_cases s b with h | ⟨-, -, h⟩ <;> simp [h]

@[simp] theorem State.tryBanks_link (s : State) :
    s.tryBanks.link = s.link := by
  simp [State.tryBanks]

@[simp] theorem State.advanceBank_link (s : State) (b : BankId) :
    (s.advanceBank b).link = s.link := by
  simp [State.advanceBank]

@[simp] theorem State.advanceBanks_link (s : State) :
    s.advanceBanks.link = s.link := by
  simp [State.advanceBanks]

@[simp] theorem State.noteWaiting_link (s : State) :
    s.noteWaiting.link = s.link := rfl

@[simp] theorem State.orderPause_link (s : State) (b : BankId) :
    (s.orderPause b).link = s.link := by
  unfold State.orderPause; split <;> simp

@[simp] theorem State.orderPauses_link (s : State) :
    s.orderPauses.link = s.link := by
  simp [State.orderPauses]

@[simp] theorem State.tryBank_inReset (s : State) (b : BankId) :
    (s.tryBank b).inReset = s.inReset := by
  rcases State.tryBank_cases s b with h | ⟨-, -, h⟩ <;> simp [h]

@[simp] theorem State.tryBanks_inReset (s : State) :
    s.tryBanks.inReset = s.inReset := by
  simp [State.tryBanks]

@[simp] theorem State.advanceBank_inReset (s : State) (b : BankId) :
    (s.advanceBank b).inReset = s.inReset := by
  simp [State.advanceBank]

@[simp] theorem State.advanceBanks_inReset (s : State) :
    s.advanceBanks.inReset = s.inReset := by
  simp [State.advanceBanks]

@[simp] theorem State.noteWaiting_inReset (s : State) :
    s.noteWaiting.inReset = s.inReset := rfl

@[simp] theorem State.orderPause_inReset (s : State) (b : BankId) :
    (s.orderPause b).inReset = s.inReset := by
  unfold State.orderPause; split <;> simp

@[simp] theorem State.orderPauses_inReset (s : State) :
    s.orderPauses.inReset = s.inReset := by
  simp [State.orderPauses]

@[simp] theorem State.tryBank_fresh (s : State) (b : BankId) :
    (s.tryBank b).fresh = s.fresh := by
  rcases State.tryBank_cases s b with h | ⟨-, -, h⟩ <;> simp [h]

@[simp] theorem State.tryBanks_fresh (s : State) :
    s.tryBanks.fresh = s.fresh := by
  simp [State.tryBanks]

@[simp] theorem State.advanceBank_fresh (s : State) (b : BankId) :
    (s.advanceBank b).fresh = s.fresh := by
  simp [State.advanceBank]

@[simp] theorem State.advanceBanks_fresh (s : State) :
    s.advanceBanks.fresh = s.fresh := by
  simp [State.advanceBanks]

@[simp] theorem State.noteWaiting_fresh (s : State) :
    s.noteWaiting.fresh = s.fresh := rfl

@[simp] theorem State.orderPause_fresh (s : State) (b : BankId) :
    (s.orderPause b).fresh = s.fresh := by
  unfold State.orderPause; split <;> simp

@[simp] theorem State.orderPauses_fresh (s : State) :
    s.orderPauses.fresh = s.fresh := by
  simp [State.orderPauses]

@[simp] theorem State.tryBank_pending (s : State) (b : BankId) :
    (s.tryBank b).pending = s.pending := by
  rcases State.tryBank_cases s b with h | ⟨-, -, h⟩ <;> simp [h]

@[simp] theorem State.tryBank_wire (s : State) (b : BankId) :
    (s.tryBank b).wire = s.wire := by
  rcases State.tryBank_cases s b with h | ⟨-, -, h⟩ <;> simp [h]

@[simp] theorem State.tryBanks_pending (s : State) :
    s.tryBanks.pending = s.pending := by
  simp [State.tryBanks]

@[simp] theorem State.tryBanks_wire (s : State) :
    s.tryBanks.wire = s.wire := by
  simp [State.tryBanks]

@[simp] theorem State.advanceBank_pending (s : State) (b : BankId) :
    (s.advanceBank b).pending = s.pending := by
  simp [State.advanceBank]

@[simp] theorem State.advanceBank_wire (s : State) (b : BankId) :
    (s.advanceBank b).wire = s.wire := by
  simp [State.advanceBank]

@[simp] theorem State.advanceBanks_pending (s : State) :
    s.advanceBanks.pending = s.pending := by
  simp [State.advanceBanks]

@[simp] theorem State.advanceBanks_wire (s : State) :
    s.advanceBanks.wire = s.wire := by
  simp [State.advanceBanks]

@[simp] theorem State.noteWaiting_pending (s : State) :
    s.noteWaiting.pending = s.pending := rfl

@[simp] theorem State.noteWaiting_wire (s : State) :
    s.noteWaiting.wire = s.wire := rfl

@[simp] theorem State.orderPause_pending (s : State) (b : BankId) :
    (s.orderPause b).pending = s.pending := by
  unfold State.orderPause; split <;> simp

@[simp] theorem State.orderPause_wire (s : State) (b : BankId) :
    (s.orderPause b).wire = s.wire := by
  unfold State.orderPause; split <;> simp

@[simp] theorem State.orderPauses_pending (s : State) :
    s.orderPauses.pending = s.pending := by
  simp [State.orderPauses]

@[simp] theorem State.orderPauses_wire (s : State) :
    s.orderPauses.wire = s.wire := by
  simp [State.orderPauses]

@[simp] theorem State.soloClaim_bank0 (s : State) :
    s.soloClaim.bank0 = s.bank0 := by
  unfold State.soloClaim; split <;> rfl

@[simp] theorem State.tendExcess_bank0 (s : State) :
    s.tendExcess.bank0 = s.bank0 := by
  unfold State.tendExcess; (repeat' split) <;> rfl

@[simp] theorem State.tendClaims_bank0 (s : State) :
    s.tendClaims.bank0 = s.bank0 := rfl

@[simp] theorem State.tendTransmit_bank0 (s : State) :
    s.tendTransmit.bank0 = s.bank0 := by
  unfold State.tendTransmit; split <;> simp

@[simp] theorem State.soloClaim_bank1 (s : State) :
    s.soloClaim.bank1 = s.bank1 := by
  unfold State.soloClaim; split <;> rfl

@[simp] theorem State.tendExcess_bank1 (s : State) :
    s.tendExcess.bank1 = s.bank1 := by
  unfold State.tendExcess; (repeat' split) <;> rfl

@[simp] theorem State.tendClaims_bank1 (s : State) :
    s.tendClaims.bank1 = s.bank1 := rfl

@[simp] theorem State.tendTransmit_bank1 (s : State) :
    s.tendTransmit.bank1 = s.bank1 := by
  unfold State.tendTransmit; split <;> simp

@[simp] theorem State.soloClaim_completions (s : State) :
    s.soloClaim.completions = s.completions := by
  unfold State.soloClaim; split <;> rfl

@[simp] theorem State.tendExcess_completions (s : State) :
    s.tendExcess.completions = s.completions := by
  unfold State.tendExcess; (repeat' split) <;> rfl

@[simp] theorem State.tendClaims_completions (s : State) :
    s.tendClaims.completions = s.completions := rfl

@[simp] theorem State.tendTransmit_completions (s : State) :
    s.tendTransmit.completions = s.completions := by
  unfold State.tendTransmit; split <;> simp

@[simp] theorem State.soloClaim_port (s : State) :
    s.soloClaim.port = s.port := by
  unfold State.soloClaim; split <;> rfl

@[simp] theorem State.tendExcess_port (s : State) :
    s.tendExcess.port = s.port := by
  unfold State.tendExcess; (repeat' split) <;> rfl

@[simp] theorem State.tendClaims_port (s : State) :
    s.tendClaims.port = s.port := rfl

@[simp] theorem State.tendTransmit_port (s : State) :
    s.tendTransmit.port = s.port := by
  unfold State.tendTransmit; split <;> simp

@[simp] theorem State.soloClaim_link (s : State) :
    s.soloClaim.link = s.link := by
  unfold State.soloClaim; split <;> rfl

@[simp] theorem State.tendExcess_link (s : State) :
    s.tendExcess.link = s.link := by
  unfold State.tendExcess; (repeat' split) <;> rfl

@[simp] theorem State.tendClaims_link (s : State) :
    s.tendClaims.link = s.link := rfl

@[simp] theorem State.tendTransmit_link (s : State) :
    s.tendTransmit.link = s.link := by
  unfold State.tendTransmit; split <;> simp

@[simp] theorem State.soloClaim_inReset (s : State) :
    s.soloClaim.inReset = s.inReset := by
  unfold State.soloClaim; split <;> rfl

@[simp] theorem State.tendExcess_inReset (s : State) :
    s.tendExcess.inReset = s.inReset := by
  unfold State.tendExcess; (repeat' split) <;> rfl

@[simp] theorem State.tendClaims_inReset (s : State) :
    s.tendClaims.inReset = s.inReset := rfl

@[simp] theorem State.tendTransmit_inReset (s : State) :
    s.tendTransmit.inReset = s.inReset := by
  unfold State.tendTransmit; split <;> simp

@[simp] theorem State.soloClaim_fresh (s : State) :
    s.soloClaim.fresh = s.fresh := by
  unfold State.soloClaim; split <;> rfl

@[simp] theorem State.tendExcess_fresh (s : State) :
    s.tendExcess.fresh = s.fresh := by
  unfold State.tendExcess; (repeat' split) <;> rfl

@[simp] theorem State.tendClaims_fresh (s : State) :
    s.tendClaims.fresh = s.fresh := rfl

@[simp] theorem State.tendTransmit_fresh (s : State) :
    s.tendTransmit.fresh = s.fresh := by
  unfold State.tendTransmit; split <;> simp

@[simp] theorem State.soloClaim_pending (s : State) :
    s.soloClaim.pending = s.pending := by
  unfold State.soloClaim; split <;> rfl

@[simp] theorem State.soloClaim_wire (s : State) :
    s.soloClaim.wire = s.wire := by
  unfold State.soloClaim; split <;> rfl

@[simp] theorem State.tendExcess_pending (s : State) :
    s.tendExcess.pending = s.pending := by
  unfold State.tendExcess; (repeat' split) <;> rfl

@[simp] theorem State.tendExcess_wire (s : State) :
    s.tendExcess.wire = s.wire := by
  unfold State.tendExcess; (repeat' split) <;> rfl

@[simp] theorem State.tendClaims_pending (s : State) :
    s.tendClaims.pending = s.pending := rfl

@[simp] theorem State.tendClaims_wire (s : State) :
    s.tendClaims.wire = s.wire := rfl

@[simp] theorem State.tendTransmit_pending (s : State) :
    s.tendTransmit.pending = s.pending := by
  unfold State.tendTransmit; split <;> simp

@[simp] theorem State.tendTransmit_wire (s : State) :
    s.tendTransmit.wire = s.wire := by
  unfold State.tendTransmit; split <;> simp

@[simp] theorem State.soloClaim_ctl_station (s : State) :
    s.soloClaim.ctl.station = s.ctl.station := by
  unfold State.soloClaim; split <;> rfl

@[simp] theorem State.tendExcess_ctl_station (s : State) :
    s.tendExcess.ctl.station = s.ctl.station := by
  unfold State.tendExcess; (repeat' split) <;> rfl

@[simp] theorem State.tendClaims_ctl_station (s : State) :
    s.tendClaims.ctl.station = s.ctl.station := rfl

@[simp] theorem State.tendTransmit_ctl_station (s : State) :
    s.tendTransmit.ctl.station = s.ctl.station := by
  unfold State.tendTransmit; split <;> simp

@[simp] theorem State.soloClaim_ctl_id (s : State) :
    s.soloClaim.ctl.id = s.ctl.id := by
  unfold State.soloClaim; split <;> rfl

@[simp] theorem State.tendExcess_ctl_id (s : State) :
    s.tendExcess.ctl.id = s.ctl.id := by
  unfold State.tendExcess; (repeat' split) <;> rfl

@[simp] theorem State.tendClaims_ctl_id (s : State) :
    s.tendClaims.ctl.id = s.ctl.id := rfl

@[simp] theorem State.tendTransmit_ctl_id (s : State) :
    s.tendTransmit.ctl.id = s.ctl.id := by
  unfold State.tendTransmit; split <;> simp

@[simp] theorem State.soloClaim_ctl_nonce (s : State) :
    s.soloClaim.ctl.nonce = s.ctl.nonce := by
  unfold State.soloClaim; split <;> rfl

@[simp] theorem State.tendExcess_ctl_nonce (s : State) :
    s.tendExcess.ctl.nonce = s.ctl.nonce := by
  unfold State.tendExcess; (repeat' split) <;> rfl

@[simp] theorem State.tendClaims_ctl_nonce (s : State) :
    s.tendClaims.ctl.nonce = s.ctl.nonce := rfl

@[simp] theorem State.tendTransmit_ctl_nonce (s : State) :
    s.tendTransmit.ctl.nonce = s.ctl.nonce := by
  unfold State.tendTransmit; split <;> simp

@[simp] theorem State.soloClaim_ctl_settings (s : State) :
    s.soloClaim.ctl.settings = s.ctl.settings := by
  unfold State.soloClaim; split <;> rfl

@[simp] theorem State.tendExcess_ctl_settings (s : State) :
    s.tendExcess.ctl.settings = s.ctl.settings := by
  unfold State.tendExcess; (repeat' split) <;> rfl

@[simp] theorem State.tendClaims_ctl_settings (s : State) :
    s.tendClaims.ctl.settings = s.ctl.settings := rfl

@[simp] theorem State.tendTransmit_ctl_settings (s : State) :
    s.tendTransmit.ctl.settings = s.ctl.settings := by
  unfold State.tendTransmit; split <;> simp

@[simp] theorem State.soloClaim_ctl_digest (s : State) :
    s.soloClaim.ctl.digest = s.ctl.digest := by
  unfold State.soloClaim; split <;> rfl

@[simp] theorem State.tendExcess_ctl_digest (s : State) :
    s.tendExcess.ctl.digest = s.ctl.digest := by
  unfold State.tendExcess; (repeat' split) <;> rfl

@[simp] theorem State.tendClaims_ctl_digest (s : State) :
    s.tendClaims.ctl.digest = s.ctl.digest := rfl

@[simp] theorem State.tendTransmit_ctl_digest (s : State) :
    s.tendTransmit.ctl.digest = s.ctl.digest := by
  unfold State.tendTransmit; split <;> simp

@[simp] theorem State.soloClaim_ctl_renewal (s : State) :
    s.soloClaim.ctl.renewal = s.ctl.renewal := by
  unfold State.soloClaim; split <;> rfl

@[simp] theorem State.tendExcess_ctl_renewal (s : State) :
    s.tendExcess.ctl.renewal = s.ctl.renewal := by
  unfold State.tendExcess; (repeat' split) <;> rfl

@[simp] theorem State.tendClaims_ctl_renewal (s : State) :
    s.tendClaims.ctl.renewal = s.ctl.renewal := rfl

@[simp] theorem State.tendTransmit_ctl_renewal (s : State) :
    s.tendTransmit.ctl.renewal = s.ctl.renewal := by
  unfold State.tendTransmit; split <;> simp

@[simp] theorem State.soloClaim_ctl_lapsed (s : State) :
    s.soloClaim.ctl.lapsed = s.ctl.lapsed := by
  unfold State.soloClaim; split <;> rfl

@[simp] theorem State.tendExcess_ctl_lapsed (s : State) :
    s.tendExcess.ctl.lapsed = s.ctl.lapsed := by
  unfold State.tendExcess; (repeat' split) <;> rfl

@[simp] theorem State.tendClaims_ctl_lapsed (s : State) :
    s.tendClaims.ctl.lapsed = s.ctl.lapsed := rfl

@[simp] theorem State.tendTransmit_ctl_lapsed (s : State) :
    s.tendTransmit.ctl.lapsed = s.ctl.lapsed := by
  unfold State.tendTransmit; split <;> simp

@[simp] theorem State.soloClaim_ctl_window (s : State) :
    s.soloClaim.ctl.window = s.ctl.window := by
  unfold State.soloClaim; split <;> rfl

@[simp] theorem State.tendExcess_ctl_window (s : State) :
    s.tendExcess.ctl.window = s.ctl.window := by
  unfold State.tendExcess; (repeat' split) <;> rfl

@[simp] theorem State.tendClaims_ctl_window (s : State) :
    s.tendClaims.ctl.window = s.ctl.window := rfl

@[simp] theorem State.tendTransmit_ctl_window (s : State) :
    s.tendTransmit.ctl.window = s.ctl.window := by
  unfold State.tendTransmit; split <;> simp

@[simp] theorem State.soloClaim_ctl_diverged (s : State) :
    s.soloClaim.ctl.diverged = s.ctl.diverged := by
  unfold State.soloClaim; split <;> rfl

@[simp] theorem State.tendExcess_ctl_diverged (s : State) :
    s.tendExcess.ctl.diverged = s.ctl.diverged := by
  unfold State.tendExcess; (repeat' split) <;> rfl

@[simp] theorem State.tendClaims_ctl_diverged (s : State) :
    s.tendClaims.ctl.diverged = s.ctl.diverged := rfl

@[simp] theorem State.tendTransmit_ctl_diverged (s : State) :
    s.tendTransmit.ctl.diverged = s.ctl.diverged := by
  unfold State.tendTransmit; split <;> simp

@[simp] theorem State.tendExcess_ctl_table (s : State) :
    s.tendExcess.ctl.table = s.ctl.table := by
  unfold State.tendExcess; (repeat' split) <;> rfl

@[simp] theorem State.tendClaims_ctl_table (s : State) :
    s.tendClaims.ctl.table = s.ctl.table := rfl

@[simp] theorem State.tendTransmit_ctl_table (s : State) :
    s.tendTransmit.ctl.table = s.ctl.table := by
  unfold State.tendTransmit; split <;> simp

@[simp] theorem State.admitAll_port (s : State) :
    s.admitAll.port = s.port := by
  simp [State.admitAll]

@[simp] theorem State.settle_port (s : State) :
    s.settle.port = s.port := by
  simp [State.settle]

@[simp] theorem State.admitAll_link (s : State) :
    s.admitAll.link = s.link := by
  simp [State.admitAll]

@[simp] theorem State.settle_link (s : State) :
    s.settle.link = s.link := by
  simp [State.settle]

@[simp] theorem State.admitAll_inReset (s : State) :
    s.admitAll.inReset = s.inReset := by
  simp [State.admitAll]

@[simp] theorem State.settle_inReset (s : State) :
    s.settle.inReset = s.inReset := by
  simp [State.settle]

@[simp] theorem State.admitAll_fresh (s : State) :
    s.admitAll.fresh = s.fresh := by
  simp [State.admitAll]

@[simp] theorem State.settle_fresh (s : State) :
    s.settle.fresh = s.fresh := by
  simp [State.settle]

@[simp] theorem State.admitAll_pending (s : State) :
    s.admitAll.pending = s.pending := by
  simp [State.admitAll]

@[simp] theorem State.admitAll_wire (s : State) :
    s.admitAll.wire = s.wire := by
  simp [State.admitAll]

@[simp] theorem State.settle_pending (s : State) :
    s.settle.pending = s.pending := by
  simp [State.settle]

@[simp] theorem State.settle_wire (s : State) :
    s.settle.wire = s.wire := by
  simp [State.settle]

@[simp] theorem State.admitAll_ctl_station (s : State) :
    s.admitAll.ctl.station = s.ctl.station := by
  simp [State.admitAll]

@[simp] theorem State.settle_ctl_station (s : State) :
    s.settle.ctl.station = s.ctl.station := by
  simp [State.settle]

@[simp] theorem State.admitAll_ctl_id (s : State) :
    s.admitAll.ctl.id = s.ctl.id := by
  simp [State.admitAll]

@[simp] theorem State.settle_ctl_id (s : State) :
    s.settle.ctl.id = s.ctl.id := by
  simp [State.settle]

@[simp] theorem State.admitAll_ctl_nonce (s : State) :
    s.admitAll.ctl.nonce = s.ctl.nonce := by
  simp [State.admitAll]

@[simp] theorem State.settle_ctl_nonce (s : State) :
    s.settle.ctl.nonce = s.ctl.nonce := by
  simp [State.settle]

@[simp] theorem State.admitAll_ctl_settings (s : State) :
    s.admitAll.ctl.settings = s.ctl.settings := by
  simp [State.admitAll]

@[simp] theorem State.settle_ctl_settings (s : State) :
    s.settle.ctl.settings = s.ctl.settings := by
  simp [State.settle]

@[simp] theorem State.admitAll_ctl_digest (s : State) :
    s.admitAll.ctl.digest = s.ctl.digest := by
  simp [State.admitAll]

@[simp] theorem State.settle_ctl_digest (s : State) :
    s.settle.ctl.digest = s.ctl.digest := by
  simp [State.settle]

@[simp] theorem State.admitAll_ctl_renewal (s : State) :
    s.admitAll.ctl.renewal = s.ctl.renewal := by
  simp [State.admitAll]

@[simp] theorem State.settle_ctl_renewal (s : State) :
    s.settle.ctl.renewal = s.ctl.renewal := by
  simp [State.settle]

@[simp] theorem State.admitAll_ctl_lapsed (s : State) :
    s.admitAll.ctl.lapsed = s.ctl.lapsed := by
  simp [State.admitAll]

@[simp] theorem State.settle_ctl_lapsed (s : State) :
    s.settle.ctl.lapsed = s.ctl.lapsed := by
  simp [State.settle]

@[simp] theorem State.admitAll_ctl_window (s : State) :
    s.admitAll.ctl.window = s.ctl.window := by
  simp [State.admitAll]

@[simp] theorem State.settle_ctl_window (s : State) :
    s.settle.ctl.window = s.ctl.window := by
  simp [State.settle]

@[simp] theorem State.admitAll_ctl_diverged (s : State) :
    s.admitAll.ctl.diverged = s.ctl.diverged := by
  simp [State.admitAll]

@[simp] theorem State.settle_ctl_diverged (s : State) :
    s.settle.ctl.diverged = s.ctl.diverged := by
  simp [State.settle]

/-- Outside SOLO settling leaves the budget table as it stands. -/
theorem State.settle_ctl_table (s : State) (h : s.ctl.station ≠ .solo) : s.settle.ctl.table = s.ctl.table := by
  have solo : ∀ x : State, x.ctl.station ≠ .solo → x.soloClaim.ctl.table = x.ctl.table := by
    intro x hx
    unfold State.soloClaim
    split
    · exact absurd (‹_ ∧ _› : _ ∧ _).1 hx
    · rfl
  have : s.advanceBanks.tryBanks.ctl.station ≠ .solo := by simpa using h
  simp [State.settle, State.admitAll, solo _ this]

/-- In every state settling leaves every entry but the own one as it stands. -/
theorem State.settle_ctl_entry (s : State) {k : StationId} (h : k ≠ s.ctl.id) :
    s.settle.ctl.table.entry k = s.ctl.table.entry k := by
  have solo : ∀ x : State, x.ctl.id = s.ctl.id → x.soloClaim.ctl.table.entry k = x.ctl.table.entry k := by
    intro x hx
    unfold State.soloClaim
    split
    · simp only [Controller.setOwn]
      exact PerStation.entry_put_other _ (hx ▸ h) _
    · rfl
  have : s.advanceBanks.tryBanks.ctl.id = s.ctl.id := by simp
  simp [State.settle, State.admitAll, solo _ this]

/-- The records of the completion queue stay, ahead of those that join it. -/
theorem State.settle_completions (s : State) : ∃ more, s.settle.completions = s.completions ++ more := by
  have adv : ∀ (x : State) (b : BankId), ∃ more, (x.advanceBank b).completions = x.completions ++ more := by
    intro x b
    obtain ⟨more, h⟩ := Bank.advance_ended (x.bank b).advanceFuel (Turn.of (x.bank b))
    exact ⟨more, by simp [State.advanceBank, h]⟩
  obtain ⟨m0, h0⟩ := adv s .zero
  obtain ⟨m1, h1⟩ := adv (s.advanceBank .zero) .one
  exact ⟨m0 ++ m1, by simp [State.settle, State.admitAll, State.advanceBanks, h1, h0, List.append_assoc]⟩

end Sys2Proof.Machine
end

