-- ==== Sys2Proof/Laws/Bus.lean ====
section
/-! SUPPORT. The budget bus bit by bit: a line and its bits, bits read one after another, and what one bit does to the
port. -/

namespace Sys2Proof.Machine

/-! ### A line and its bits -/

theorem getMsbD_wordOfBits {n k : Nat} {bits : List Bool} (h : k < n) : (wordOfBits n bits).getMsbD k = bits.getD k true := by
  induction n generalizing k bits with
  | zero => omega
  | succ n ih =>
    cases k with
    | zero => cases bits <;> simp [wordOfBits, BitVec.getMsbD, BitVec.getElem_cons]
    | succ k =>
      have hk : k < n := by omega
      have := ih (bits := bits.tail) hk
      have e : n + 1 - 1 - (k + 1) = n - 1 - k := by omega
      have ne : n - 1 - k ≠ n := by omega
      cases bits <;> simp_all [wordOfBits, BitVec.getMsbD, BitVec.getLsbD_cons]

/-- A bit of a line as far as it has been read, which is recessive where it has not. -/
@[simp] theorem lineBit_lineOfBits {bits : List Bool} {k : Nat} (h : k < 55) :
    lineBit (lineOfBits bits) k = bits.getD k true := by
  have := getMsbD_wordOfBits (bits := bits) h
  simpa [lineBit, lineOfBits] using this

@[simp] theorem length_lineBits (l : Line) : (lineBits l).length = 55 := by simp [lineBits]

/-- A line is its bits. -/
@[simp] theorem lineOfBits_lineBits (l : Line) : lineOfBits (lineBits l) = l := by
  apply BitVec.eq_of_getMsbD_eq
  intro k hk
  have := getMsbD_wordOfBits (bits := lineBits l) hk
  rw [lineOfBits, this]
  simp [lineBits, lineBit, List.getD, hk]

/-! ### Bits one after another -/

@[simp] theorem State.readBits_nil (s : State) : s.readBits [] = s := rfl

@[simp] theorem State.readBits_cons (s : State) (b : Bool) (bits : List Bool) :
    s.readBits (b :: bits) = (s.readBit b).readBits bits := rfl

theorem State.readBits_append (s : State) (first second : List Bool) :
    s.readBits (first ++ second) = (s.readBits first).readBits second := by
  simp [State.readBits, List.foldl_append]

/-- What every bit leaves, a row of bits leaves. -/
theorem State.readBits_induct {Inv : State → Prop} (step : ∀ s b, Inv s → Inv (s.readBit b)) {s : State} (h : Inv s)
    (bits : List Bool) : Inv (s.readBits bits) := by
  induction bits generalizing s with
  | nil => exact h
  | cons b bits ih => exact ih (step s b h)

/-- What every bit leaves, the line at one level leaves. -/
theorem State.readWhile_induct {Inv : State → Prop} (step : ∀ s b, Inv s → Inv (s.readBit b)) {s : State} (h : Inv s)
    (recessive : Bool) (going : Port → Bool) (most : Nat) : Inv (s.readWhile recessive going most) := by
  induction most generalizing s with
  | zero => exact h
  | succ n ih =>
    unfold State.readWhile
    split
    · exact ih (step s recessive h)
    · exact h

/-! ### One bit -/

theorem State.readBit_reset {s : State} (h : s.heldInReset = true) (b : Bool) : s.readBit b = s := by
  simp [State.readBit, h]

theorem State.readBit_offBus {s : State} (hr : s.heldInReset = false) (ho : s.ctl.station.onBus = false) (b : Bool) :
    s.readBit b = if s.ctl.station.watchesLine then { s with port := s.port.outBit b } else s := by
  simp [State.readBit, hr, ho]

theorem State.readBit_free {s : State} (hr : s.heldInReset = false) (ho : s.ctl.station.onBus = true)
    (hf : s.port.framing = .outOfFrame) (b : Bool) : s.readBit b = s.freeBit b := by
  simp [State.readBit, hr, ho, hf]

theorem State.readBit_inFrame {s : State} {heard : List Bool} (hr : s.heldInReset = false)
    (ho : s.ctl.station.onBus = true) (hf : s.port.framing = .inFrame heard) (b : Bool) :
    s.readBit b = s.frameBit heard b := by
  simp [State.readBit, hr, ho, hf]

/-- Everything that one bit can do: nothing, a bit out of frame, the idle at which a lost attempt is settled, a bit of a frame, or
the end of one. -/
theorem State.readBit_cases (s : State) (b : Bool) :
    s.readBit b = s ∨
      (s.ctl.station.onBus = false ∧ s.readBit b = { s with port := s.port.outBit b }) ∨
      (s.ctl.station.onBus = true ∧ s.port.framing = .outOfFrame ∧
        (s.readBit b = { s with port := s.port.freeBit b } ∨
          s.readBit b = State.settle { s with port := { s.port.freeBit b with sending := none } })) ∨
      ∃ heard, s.ctl.station.onBus = true ∧ s.port.framing = .inFrame heard ∧
        let read := s.readLevel heard b
        let heard' := heard ++ [read]
        (heard'.length < frameBits ∧ s.readBit b =
            { s with port := { (s.slotsAfter heard').countDominant read with framing := .inFrame heard' } }) ∨
          (frameBits ≤ heard'.length ∧
            s.readBit b = ({ s with port := s.port.countDominant read }).endFrame (lineOfBits heard')) := by
  unfold State.readBit
  split
  · exact .inl rfl
  · split
    · rename_i ho
      split
      · rename_i hf
        refine .inr (.inr (.inl ⟨ho, hf, ?_⟩))
        unfold State.freeBit
        dsimp only
        split
        · exact .inr rfl
        · exact .inl rfl
      · rename_i heard hf
        refine .inr (.inr (.inr ⟨heard, ho, hf, ?_⟩))
        unfold State.frameBit
        dsimp only
        split
        · exact .inl ⟨by assumption, rfl⟩
        · exact .inr ⟨by omega, rfl⟩
    · rename_i ho
      split
      · exact .inr (.inl ⟨by simpa using ho, rfl⟩)
      · exact .inl rfl

/-- A bit within a frame, after its start and before the end of its check field, is only heard and counted. -/
theorem State.readBit_hears {s : State} {heard : List Bool} (hr : s.heldInReset = false)
    (ho : s.ctl.station.onBus = true) (hf : s.port.framing = .inFrame heard) (h0 : 0 < heard.length)
    (h1 : heard.length + 1 < checkEnd) (b : Bool) :
    s.readBit b = { s with port := { s.port.countDominant b with framing := .inFrame (heard ++ [b]) } } := by
  have hl : s.readLevel heard b = b := by
    simp only [State.readLevel, checkEnd] at *
    simp [show heard ≠ [] from fun h => by simp [h] at h0, show heard.length ≠ 50 by omega,
      show heard.length ≠ 51 by omega]
  rw [State.readBit_inFrame hr ho hf, State.frameBit, hl]
  have hs : s.slotsAfter (heard ++ [b]) = s.port := by
    simp only [State.slotsAfter, checkEnd, List.length_append, List.length_singleton] at *
    simp [show heard.length + 1 ≠ 50 by omega, show heard.length + 1 ≠ 52 by omega]
  simp only [checkEnd] at h1
  simp [frameBits, show heard.length + 1 < 55 by omega, hs]

/-- So are any bits that end before the check field does: they join what has been heard, and only the dominant count and BUS_STUCK
move besides. -/
theorem State.readBits_hear {s : State} {heard : List Bool} (hr : s.heldInReset = false)
    (ho : s.ctl.station.onBus = true) (hf : s.port.framing = .inFrame heard) (h0 : 0 < heard.length) (bits : List Bool)
    (h1 : heard.length + bits.length < checkEnd) :
    ∃ d k, s.readBits bits =
      { s with port := { s.port with framing := .inFrame (heard ++ bits), dominantCount := d, stuck := k } } := by
  induction bits generalizing s heard with
  | nil => exact ⟨s.port.dominantCount, s.port.stuck, by simp [← hf]⟩
  | cons b bits ih =>
    simp only [List.length_cons] at h1
    rw [State.readBits_cons, State.readBit_hears hr ho hf h0 (by omega)]
    obtain ⟨d, k, h⟩ := ih
      (s := { s with port := { s.port.countDominant b with framing := .inFrame (heard ++ [b]) } })
      (heard := heard ++ [b]) hr ho rfl (by simp) (by simp; omega)
    refine ⟨d, k, ?_⟩
    rw [h]
    cases b <;> simp [Port.countDominant]

/-! ### The host link's bits -/

/-- A byte's bits, most significant first, make that byte again (R169). -/
theorem bitsByte_byteBits (b : Byte) : bitsByte (byteBits b).reverse = b := by
  revert b
  decide +kernel

/-- Eight bits of HDI are one byte of the transaction (R169). -/
theorem hdiBytes_byte (b : Byte) (rest : List Bool) : hdiBytes (byteBits b ++ rest) = b :: hdiBytes rest := by
  have h := bitsByte_byteBits b
  simp only [byteBits, List.reverse_cons, List.reverse_nil, List.nil_append, List.cons_append] at h
  simp [byteBits, hdiBytes, h]

/-- A byte that HSEL_N cuts short makes none (R169). -/
theorem hdiBytes_short {bits : List Bool} (h : bits.length < 8) : hdiBytes bits = [] := by
  unfold hdiBytes
  split
  · simp only [List.length_cons] at h; omega
  · rfl

end Sys2Proof.Machine
end

