-- ==== Sys2Proof/Laws/Store.lean ====
section
/-! SUPPORT. The sparse store: a read after a write, and that every operation keeps the canonical form. -/

namespace Sys2Proof.Machine

variable {α : Type}

theorem Store.get_of_lt [DecidableEq α] {d : α} {m : Store α} {lo a : Nat} (h : Store.wfFrom d lo m) (ha : a < lo) :
    Store.get d m a = d := by
  cases m with
  | nil => rfl
  | cons c m =>
    obtain ⟨k, v⟩ := c
    simp only [Store.wfFrom, Bool.and_eq_true, decide_eq_true_eq] at h
    have : a < k := by omega
    simp [Store.get, this]

theorem Store.wfFrom_mono [DecidableEq α] {d : α} {m : Store α} {lo lo' : Nat} (h : Store.wfFrom d lo m) (hl : lo' ≤ lo) :
    Store.wfFrom d lo' m := by
  cases m with
  | nil => rfl
  | cons c m =>
    obtain ⟨k, v⟩ := c
    simp only [Store.wfFrom, Bool.and_eq_true, decide_eq_true_eq] at h ⊢
    exact ⟨⟨by omega, h.1.2⟩, h.2⟩

/-- A read after a write gives the value written. -/
theorem Store.get_set_same [DecidableEq α] (d : α) (lo : Nat) (m : Store α) (h : Store.wfFrom d lo m) (a : Nat) (x : α) :
    Store.get d (Store.set d m a x) a = x := by
  induction m generalizing lo with
  | nil => by_cases hx : x = d <;> simp [Store.set, Store.get, hx]
  | cons c m ih =>
    obtain ⟨k, v⟩ := c
    simp only [Store.wfFrom, Bool.and_eq_true, decide_eq_true_eq] at h
    unfold Store.set
    split
    · split
      · simp [Store.get, *]
      · simp [Store.get]
    · split
      · split
        · rename_i h1 h2 h3
          rw [Store.get_of_lt h.2 (by omega), h3]
        · simp [Store.get]
      · rename_i h1 h2
        simp only [Store.get, h1, h2, if_false]
        exact ih (k + 1) h.2

/-- A write leaves every other key as it was. -/
theorem Store.get_set_other [DecidableEq α] (d : α) (lo : Nat) (m : Store α) (h : Store.wfFrom d lo m) {a b : Nat}
    (hb : b ≠ a) (x : α) : Store.get d (Store.set d m a x) b = Store.get d m b := by
  induction m generalizing lo with
  | nil =>
    by_cases hx : x = d
    · simp [Store.set, hx]
    · simp only [Store.set, hx, if_false, Store.get, hb]
      split <;> rfl
  | cons c m ih =>
    obtain ⟨k, v⟩ := c
    simp only [Store.wfFrom, Bool.and_eq_true, decide_eq_true_eq] at h
    unfold Store.set
    split
    · split
      · rfl
      · simp only [Store.get, hb, if_false]
        (repeat' split) <;> first | rfl | omega
    · split
      · rename_i h1 h2
        subst h2
        split
        · simp only [Store.get, hb, if_false]
          split
          · exact Store.get_of_lt h.2 (by omega)
          · rfl
        · simp only [Store.get, hb, if_false]
      · simp only [Store.get]
        split
        · rfl
        · split
          · rfl
          · exact ih (k + 1) h.2

/-- A write keeps the canonical form. -/
theorem Store.set_wfFrom [DecidableEq α] (d : α) {lo : Nat} {m : Store α} (h : Store.wfFrom d lo m) {a : Nat} (ha : lo ≤ a)
    (x : α) : Store.wfFrom d lo (Store.set d m a x) := by
  induction m generalizing lo with
  | nil =>
    by_cases hx : x = d <;> simp [Store.set, Store.wfFrom, hx, ha]
  | cons c m ih =>
    obtain ⟨k, v⟩ := c
    simp only [Store.wfFrom, Bool.and_eq_true, decide_eq_true_eq] at h
    unfold Store.set
    split
    · split
      · simp [Store.wfFrom, h.1.1, h.1.2, h.2]
      · rename_i h1 h2
        simp only [Store.wfFrom, Bool.and_eq_true, decide_eq_true_eq]
        exact ⟨⟨ha, h2⟩, ⟨by omega, h.1.2⟩, h.2⟩
    · split
      · rename_i h1 h2
        subst h2
        split
        · exact Store.wfFrom_mono h.2 (by omega)
        · rename_i h3
          simp only [Store.wfFrom, Bool.and_eq_true, decide_eq_true_eq]
          exact ⟨⟨h.1.1, h3⟩, h.2⟩
      · simp only [Store.wfFrom, Bool.and_eq_true, decide_eq_true_eq]
        exact ⟨h.1, ih h.2 (by omega)⟩

theorem Store.set_wf [DecidableEq α] (d : α) {m : Store α} (h : Store.wf d m) (a : Nat) (x : α) :
    Store.wf d (Store.set d m a x) :=
  Store.set_wfFrom d h (Nat.zero_le a) x

/-- Keeping some of the entries keeps the canonical form. -/
theorem Store.filter_wfFrom [DecidableEq α] (d : α) (p : Nat × α → Bool) {lo : Nat} {m : Store α}
    (h : Store.wfFrom d lo m) : Store.wfFrom d lo (m.filter p) := by
  induction m generalizing lo with
  | nil => rfl
  | cons c m ih =>
    obtain ⟨k, v⟩ := c
    simp only [Store.wfFrom, Bool.and_eq_true, decide_eq_true_eq] at h
    simp only [List.filter_cons]
    split
    · simp only [Store.wfFrom, Bool.and_eq_true, decide_eq_true_eq]
      exact ⟨h.1, ih h.2⟩
    · exact Store.wfFrom_mono (ih h.2) (by omega)

/-- Clearing a range keeps the canonical form. -/
theorem Store.clear_wf [DecidableEq α] (d : α) {m : Store α} (h : Store.wf d m) (lo n : Nat) :
    Store.wf d (Store.clear m lo n) :=
  Store.filter_wfFrom d _ h

/-- Reading a filtered store, where the filter looks at the keys alone. -/
theorem Store.get_filter [DecidableEq α] (d : α) (p : Nat → Bool) {lo : Nat} {m : Store α} (h : Store.wfFrom d lo m)
    (a : Nat) : Store.get d (m.filter fun c => p c.1) a = if p a then Store.get d m a else d := by
  induction m generalizing lo with
  | nil => simp [Store.get]
  | cons c m ih =>
    obtain ⟨k, v⟩ := c
    simp only [Store.wfFrom, Bool.and_eq_true, decide_eq_true_eq] at h
    have hf := ih h.2
    simp only [List.filter_cons]
    by_cases hk : p k = true
    · simp only [hk, if_true, Store.get]
      split
      · simp
      · split
        · rename_i h1 h2; subst h2; simp [hk]
        · exact hf
    · rw [if_neg hk, hf]
      by_cases hp : p a = true
      · simp only [hp, if_true, Store.get]
        by_cases h1 : a < k
        · simp [h1, Store.get_of_lt h.2 (by omega : a < k + 1)]
        · by_cases h2 : a = k
          · subst h2; exact absurd hp hk
          · simp [h1, h2]
      · simp [hp]

/-- A cleared range reads the unlisted value, and every other key as before. -/
theorem Store.get_clear [DecidableEq α] (d : α) {m : Store α} (h : Store.wf d m) (lo n a : Nat) :
    Store.get d (Store.clear m lo n) a = if lo ≤ a ∧ a < lo + n then d else Store.get d m a := by
  have := Store.get_filter d (fun k => decide (k < lo) || decide (lo + n ≤ k)) h a
  unfold Store.clear
  rw [this]
  by_cases h1 : lo ≤ a ∧ a < lo + n
  · have h2 : ¬ (a < lo) := by omega
    have h3 : ¬ (lo + n ≤ a) := by omega
    simp [h1, h2, h3]
  · have h2 : a < lo ∨ lo + n ≤ a := by omega
    rcases h2 with h2 | h2 <;> simp [h1, h2]

/-- A slice is canonical, with its keys below its length. -/
theorem Store.slice_wfFrom [DecidableEq α] (d : α) (base n : Nat) {lo : Nat} {m : Store α} (h : Store.wfFrom d lo m) :
    Store.wfFrom d (lo - base) (Store.slice m base n) := by
  induction m generalizing lo with
  | nil => rfl
  | cons c m ih =>
    obtain ⟨k, v⟩ := c
    simp only [Store.wfFrom, Bool.and_eq_true, decide_eq_true_eq] at h
    have ih' := ih h.2
    unfold Store.slice at ih' ⊢
    simp only [List.filterMap_cons]
    split
    · rename_i hn
      exact Store.wfFrom_mono ih' (by omega)
    · rename_i x hx
      split at hx
      · rename_i hr
        cases hx
        simp only [Store.wfFrom, Bool.and_eq_true, decide_eq_true_eq]
        refine ⟨⟨by omega, h.1.2⟩, ?_⟩
        have : k + 1 - base = k - base + 1 := by omega
        rw [← this]; exact ih'
      · cases hx

theorem Store.slice_wf [DecidableEq α] (d : α) {m : Store α} (h : Store.wf d m) (base n : Nat) :
    Store.wf d (Store.slice m base n) := by
  have := Store.slice_wfFrom d base n h
  simpa [Store.wf] using this

theorem Store.slice_below (m : Store α) (base n : Nat) : ∀ c ∈ Store.slice m base n, c.1 < n := by
  intro c hc
  simp only [Store.slice, List.mem_filterMap] at hc
  obtain ⟨x, -, hx⟩ := hc
  split at hx
  · cases hx; dsimp only; omega
  · cases hx

/-- Reading a slice. -/
theorem Store.get_slice [DecidableEq α] (d : α) (base n : Nat) {lo : Nat} {m : Store α} (h : Store.wfFrom d lo m) (a : Nat) :
    Store.get d (Store.slice m base n) a = if a < n then Store.get d m (base + a) else d := by
  induction m generalizing lo with
  | nil => simp [Store.slice, Store.get]
  | cons c m ih =>
    obtain ⟨k, v⟩ := c
    simp only [Store.wfFrom, Bool.and_eq_true, decide_eq_true_eq] at h
    have ih' := ih h.2
    have hs : Store.slice ((k, v) :: m) base n =
        if base ≤ k ∧ k < base + n then (k - base, v) :: Store.slice m base n else Store.slice m base n := by
      by_cases hr : base ≤ k ∧ k < base + n <;> simp [Store.slice, hr]
    rw [hs]
    by_cases hr : base ≤ k ∧ k < base + n
    · rw [if_pos hr]
      simp only [Store.get, ih']
      by_cases ha : a < n
      · simp only [ha, if_true]
        by_cases h1 : a < k - base
        · have : base + a < k := by omega
          simp [h1, this]
        · by_cases h2 : a = k - base
          · have h3 : base + a = k := by omega
            have h4 : ¬ (a < a) := by omega
            have h5 : base + (k - base) = k := by omega
            simp [h2, h5]
          · have h3 : ¬ (base + a < k) := by omega
            have h4 : ¬ (base + a = k) := by omega
            simp [h1, h2, h3, h4]
      · have h1 : ¬ (a < k - base) := by omega
        have h2 : ¬ (a = k - base) := by omega
        simp [ha, h1, h2]
    · rw [if_neg hr, ih']
      by_cases ha : a < n
      · simp only [ha, if_true, Store.get]
        by_cases h1 : base + a < k
        · simp only [h1, if_true]
          exact Store.get_of_lt h.2 (by omega)
        · have h2 : ¬ (base + a = k) := by omega
          simp [h1, h2]
      · simp [ha]

/-- Writing a page over a range keeps the canonical form. -/
theorem Store.overlay_wf [DecidableEq α] (d : α) (lo n : Nat) (m p : Store α) (h : Store.wf d m) :
    Store.wf d (Store.overlay d lo n m p) := by
  induction p generalizing m with
  | nil => exact h
  | cons c p ih =>
    obtain ⟨k, v⟩ := c
    simp only [Store.overlay]
    apply ih
    split
    · exact Store.set_wf d h _ _
    · exact h

theorem Store.blit_wf [DecidableEq α] (d : α) {m : Store α} (h : Store.wf d m) (lo n : Nat) (p : Store α) :
    Store.wf d (Store.blit d m lo n p) :=
  Store.overlay_wf d lo n _ _ (Store.clear_wf d h lo n)

theorem Store.get_overlay_outside [DecidableEq α] (d : α) (lo n : Nat) (m p : Store α) (h : Store.wf d m) (a : Nat)
    (ha : a < lo ∨ lo + n ≤ a) : Store.get d (Store.overlay d lo n m p) a = Store.get d m a := by
  induction p generalizing m with
  | nil => rfl
  | cons c p ih =>
    obtain ⟨k, v⟩ := c
    simp only [Store.overlay]
    split
    · rw [ih _ (Store.set_wf d h _ _), Store.get_set_other d 0 m h (by omega)]
    · exact ih _ h

theorem Store.get_overlay_inside [DecidableEq α] (d : α) (lo n l : Nat) (m p : Store α) (h : Store.wf d m)
    (hp : Store.wfFrom d l p) (hm : ∀ b, lo + l ≤ b → b < lo + n → Store.get d m b = d) (a : Nat) (hl : l ≤ a) (ha : a < n) :
    Store.get d (Store.overlay d lo n m p) (lo + a) = Store.get d p a := by
  induction p generalizing m l with
  | nil => exact hm _ (by omega) (by omega)
  | cons c p ih =>
    obtain ⟨k, v⟩ := c
    simp only [Store.wfFrom, Bool.and_eq_true, decide_eq_true_eq] at hp
    have keep : ∀ (m' : Store α) (p' : Store α) (l' : Nat), Store.wf d m' → Store.wfFrom d l' p' → a < l' →
        Store.get d (Store.overlay d lo n m' p') (lo + a) = Store.get d m' (lo + a) := by
      intro m' p'
      induction p' generalizing m' with
      | nil => intros; rfl
      | cons c' p' ih' =>
        obtain ⟨k', v'⟩ := c'
        intro l' hm' hp' hl'
        simp only [Store.wfFrom, Bool.and_eq_true, decide_eq_true_eq] at hp'
        simp only [Store.overlay]
        split
        · rw [ih' _ (k' + 1) (Store.set_wf d hm' _ _) hp'.2 (by omega), Store.get_set_other d 0 m' hm' (by omega)]
        · exact ih' _ (k' + 1) hm' hp'.2 (by omega)
    simp only [Store.overlay]
    by_cases hk : a < k
    · have : Store.get d ((k, v) :: p) a = d := by simp [Store.get, hk]
      rw [this]
      split
      · rw [keep _ p (k + 1) (Store.set_wf d h _ _) hp.2 (by omega), Store.get_set_other d 0 m h (by omega)]
        exact hm _ (by omega) (by omega)
      · rw [keep _ p (k + 1) h hp.2 (by omega)]
        exact hm _ (by omega) (by omega)
    · by_cases hk2 : a = k
      · subst hk2
        rw [if_pos ha, keep _ p (a + 1) (Store.set_wf d h _ _) hp.2 (by omega), Store.get_set_same d 0 m h]
        simp [Store.get]
      · have hg : Store.get d ((k, v) :: p) a = Store.get d p a := by simp [Store.get, hk, hk2]
        rw [hg, if_pos (by omega)]
        apply ih (k + 1) _ (Store.set_wf d h _ _) hp.2 _ (by omega)
        intro b hb hb'
        rw [Store.get_set_other d 0 m h (by omega)]
        exact hm b (by omega) hb'

/-- What a range holds after a page has been written over it, and what every other key holds. -/
theorem Store.get_blit [DecidableEq α] (d : α) {m p : Store α} (h : Store.wf d m) (hp : Store.wf d p) (lo n a : Nat) :
    Store.get d (Store.blit d m lo n p) a = if lo ≤ a ∧ a < lo + n then Store.get d p (a - lo) else Store.get d m a := by
  unfold Store.blit
  have hc := Store.clear_wf d h lo n
  by_cases hr : lo ≤ a ∧ a < lo + n
  · rw [if_pos hr]
    have := Store.get_overlay_inside d lo n 0 (Store.clear m lo n) p hc hp
      (fun b h1 h2 => by rw [Store.get_clear d h]; rw [if_pos (by omega)]) (a - lo) (Nat.zero_le _) (by omega)
    rwa [show lo + (a - lo) = a by omega] at this
  · rw [if_neg hr, Store.get_overlay_outside d lo n _ p hc a (by omega), Store.get_clear d h, if_neg hr]

/-- Writing bytes into a page keeps its canonical form. -/
theorem pageWrite_wf (p : Page) (offset : Nat) (bs : List Byte) (h : Store.wf blankByte p) :
    Store.wf blankByte (pageWrite p offset bs) := by
  induction bs generalizing p offset with
  | nil => exact h
  | cons b bs ih => exact ih _ _ (Store.set_wf _ h _ _)

/-- Bytes outside the written range keep their values (R50). -/
theorem pageByte_pageWrite_outside (p : Page) (offset : Nat) (bs : List Byte) (h : Store.wf blankByte p) (a : Nat)
    (ha : a < offset ∨ offset + bs.length ≤ a) : pageByte (pageWrite p offset bs) a = pageByte p a := by
  induction bs generalizing p offset with
  | nil => rfl
  | cons b bs ih =>
    simp only [List.length_cons] at ha
    simp only [pageWrite]
    rw [ih _ _ (Store.set_wf _ h _ _) (by omega)]
    exact Store.get_set_other _ 0 p h (by omega) b

/-- Bytes in the written range are the written ones, in offset order (R50). -/
theorem pageByte_pageWrite_inside (p : Page) (offset : Nat) (bs : List Byte) (h : Store.wf blankByte p) (i : Nat)
    (hi : i < bs.length) : pageByte (pageWrite p offset bs) (offset + i) = bs[i] := by
  induction bs generalizing p offset i with
  | nil => exact absurd hi (by simp)
  | cons b bs ih =>
    simp only [pageWrite]
    cases i with
    | zero =>
      rw [pageByte_pageWrite_outside _ _ _ (Store.set_wf _ h _ _) _ (by omega)]
      exact Store.get_set_same _ 0 p h _ _
    | succ i =>
      have := ih (Store.set blankByte p offset b) (offset + 1) (Store.set_wf _ h _ _) i
        (by simp only [List.length_cons] at hi; omega)
      rw [show offset + (i + 1) = offset + 1 + i by omega, this]
      simp

/-- Two canonical stores that read the same everywhere are the same store. -/
theorem Store.ext_of_get [DecidableEq α] (d : α) {lo : Nat} {m m' : Store α} (h : Store.wfFrom d lo m)
    (h' : Store.wfFrom d lo m') (hg : ∀ a, Store.get d m a = Store.get d m' a) : m = m' := by
  induction m generalizing lo m' with
  | nil =>
    cases m' with
    | nil => rfl
    | cons c m' =>
      obtain ⟨k, v⟩ := c
      simp only [Store.wfFrom, Bool.and_eq_true, decide_eq_true_eq] at h'
      have := hg k
      simp [Store.get] at this
      exact absurd this.symm h'.1.2
  | cons c m ih =>
    obtain ⟨k, v⟩ := c
    simp only [Store.wfFrom, Bool.and_eq_true, decide_eq_true_eq] at h
    cases m' with
    | nil =>
      have := hg k
      simp [Store.get] at this
      exact absurd this h.1.2
    | cons c' m' =>
      obtain ⟨k', v'⟩ := c'
      simp only [Store.wfFrom, Bool.and_eq_true, decide_eq_true_eq] at h'
      have hk : k = k' := by
        rcases Nat.lt_trichotomy k k' with hlt | heq | hgt
        · have := hg k
          simp [Store.get, hlt] at this
          exact absurd this h.1.2
        · exact heq
        · have := hg k'
          simp [Store.get, hgt] at this
          exact absurd this.symm h'.1.2
      subst hk
      have hv : v = v' := by simpa [Store.get] using hg k
      subst hv
      have : m = m' := by
        apply ih h.2 h'.2
        intro a
        have := hg a
        simp only [Store.get] at this
        by_cases h1 : a < k
        · rw [Store.get_of_lt h.2 (by omega), Store.get_of_lt h'.2 (by omega)]
        · by_cases h2 : a = k
          · rw [Store.get_of_lt h.2 (by omega), Store.get_of_lt h'.2 (by omega)]
          · simpa [h1, h2] using this
      rw [this]

end Sys2Proof.Machine
end

