-- ==== Sys2Proof/Laws/Canonical.lean ====
section
/-! SUPPORT. Every operation over a bank's array and over a page keeps its store in the one canonical form, and the array
as shipped is in it. -/

namespace Sys2Proof.Machine

theorem ArrayBank.canonical_iff {a : ArrayBank} :
    a.canonical = true ↔
      Store.wf blankByte a.cells = true ∧ Store.wf noMarks a.marks = true ∧ Store.wf true a.eraseMarks = true := by
  simp [ArrayBank.canonical, and_assoc]

theorem pageWf_iff {p : Page} : pageWf p = true ↔ Store.wf blankByte p = true ∧ ∀ c ∈ p, c.1 < pageBytes := by
  simp [pageWf]

/-- Marks written keep the form. -/
theorem ArrayBank.setMarks_canonical {a : ArrayBank} (h : a.canonical = true) (block w : Nat) (m : PassMarks) :
    (a.setMarks block w m).canonical = true := by
  obtain ⟨h1, h2, h3⟩ := canonical_iff.1 h
  exact canonical_iff.2 ⟨h1, Store.set_wf _ h2 _ _, h3⟩

/-- An erase-complete mark written or removed keeps the form. -/
theorem ArrayBank.setEraseComplete_canonical {a : ArrayBank} (h : a.canonical = true) (block : Nat) (present : Bool) :
    (a.setEraseComplete block present).canonical = true := by
  obtain ⟨h1, h2, h3⟩ := canonical_iff.1 h
  exact canonical_iff.2 ⟨h1, h2, Store.set_wf _ h3 _ _⟩

/-- A page's bytes written keep the form. -/
theorem ArrayBank.writePage_canonical {a : ArrayBank} (h : a.canonical = true) (block w : Nat) (p : Position)
    (page : Page) : (a.writePage block w p page).canonical = true := by
  obtain ⟨h1, h2, h3⟩ := canonical_iff.1 h
  exact canonical_iff.2 ⟨Store.blit_wf _ h1 _ _ _, h2, h3⟩

/-- A word line's three pages written keep the form. -/
theorem ArrayBank.writeWordLine_canonical {a : ArrayBank} (h : a.canonical = true) (block w : Nat)
    (pages : Trio Page) : (a.writeWordLine block w pages).canonical = true :=
  writePage_canonical (writePage_canonical (writePage_canonical h _ _ _ _) _ _ _ _) _ _ _ _

/-- A first erase pulse keeps the form. -/
theorem ArrayBank.clearBlock_canonical {a : ArrayBank} (h : a.canonical = true) (block : Nat) :
    (a.clearBlock block).canonical = true := by
  obtain ⟨h1, h2, h3⟩ := canonical_iff.1 h
  exact canonical_iff.2 ⟨Store.clear_wf _ h1 _ _, Store.clear_wf _ h2 _ _, h3⟩

/-- Values changed at their own keys, or removed, keep the form where no value left is the unlisted one. -/
theorem Store.filterMap_wfFrom {α : Type} [DecidableEq α] (d : α) (f : Nat × α → Option (Nat × α))
    (hf : ∀ c e, f c = some e → e.1 = c.1 ∧ (c.2 ≠ d → e.2 ≠ d)) {lo : Nat} {m : Store α}
    (h : Store.wfFrom d lo m = true) : Store.wfFrom d lo (m.filterMap f) = true := by
  induction m generalizing lo with
  | nil => rfl
  | cons c m ih =>
    obtain ⟨k, v⟩ := c
    simp only [Store.wfFrom, Bool.and_eq_true, decide_eq_true_eq] at h
    rw [List.filterMap_cons]
    cases hc : f (k, v) with
    | none => exact ih (Store.wfFrom_mono h.2 (by omega))
    | some e =>
      obtain ⟨e1, e2⟩ := hf _ _ hc
      obtain ⟨k', v'⟩ := e
      simp only at e1
      subst e1
      simp only [Store.wfFrom, Bool.and_eq_true, decide_eq_true_eq]
      exact ⟨⟨h.1.1, e2 h.1.2⟩, ih h.2⟩

/-- A cut first erase pulse keeps the form, whatever remains. -/
theorem ArrayBank.cutErase_canonical {a : ArrayBank} (h : a.canonical = true) (block cut : Nat) :
    (a.cutErase block cut).canonical = true := by
  obtain ⟨h1, h2, h3⟩ := canonical_iff.1 h
  refine canonical_iff.2 ⟨Store.filter_wfFrom _ _ h1, Store.filterMap_wfFrom _ _ ?_ h2, h3⟩
  intro c e he
  split at he
  · injection he with he
    subst he
    exact ⟨rfl, id⟩
  · simp only at he
    split at he
    · cases he
    · rename_i hn
      injection he with he
      subst he
      exact ⟨rfl, fun _ => hn⟩

/-- A page read from a canonical array is canonical. -/
theorem ArrayBank.page_wf {a : ArrayBank} (h : a.canonical = true) (block w : Nat) (p : Position) :
    pageWf (a.page block w p) = true :=
  pageWf_iff.2 ⟨Store.slice_wf _ (canonical_iff.1 h).1 _ _, Store.slice_below _ _ _⟩

/-- What a sense returns is canonical where the cells give a canonical page. -/
theorem ArrayBank.sensedPage_wf {a : ArrayBank} (h : a.canonical = true) (block w : Nat) (p : Position)
    {cells : Option Page} (hc : cellsFit cells = true) : pageWf (a.sensedPage block w p cells) = true := by
  have hp := a.page_wf h block w p
  have hd : pageWf (cells.getD (a.page block w p)) = true := by
    cases cells with
    | none => exact hp
    | some x => exact hc
  simp only [ArrayBank.sensedPage]
  split
  · split <;> first | rfl | exact hd | (split <;> assumption)
  · exact hd

/-- Bytes written into a page keep the form where they end within the page (R50). -/
theorem pageWrite_below {p : Page} {offset : Nat} {bs : List Byte} (h : ∀ c ∈ p, c.1 < pageBytes)
    (hb : offset + bs.length ≤ pageBytes) : ∀ c ∈ pageWrite p offset bs, c.1 < pageBytes := by
  have key : ∀ (m : Page) (a : Nat) (x : Byte), a < pageBytes → (∀ c ∈ m, c.1 < pageBytes) →
      ∀ c ∈ Store.set blankByte m a x, c.1 < pageBytes := by
    intro m a x ha
    induction m with
    | nil => intro _ c hc; simp only [Store.set] at hc; split at hc <;> simp_all
    | cons e m ih =>
      intro hm c hc
      obtain ⟨k, v⟩ := e
      simp only [Store.set] at hc
      have hm' : ∀ c ∈ m, c.1 < pageBytes := fun c hc => hm c (List.mem_cons_of_mem _ hc)
      have hk : k < pageBytes := hm (k, v) (List.mem_cons_self ..)
      split at hc
      · split at hc
        · exact hm c hc
        · rcases List.mem_cons.1 hc with rfl | hc
          · exact ha
          · exact hm c hc
      · split at hc
        · split at hc
          · exact hm' c hc
          · rcases List.mem_cons.1 hc with rfl | hc
            · exact ha
            · exact hm' c hc
        · rcases List.mem_cons.1 hc with rfl | hc
          · exact hk
          · exact ih hm' c hc
  induction bs generalizing p offset with
  | nil => exact h
  | cons b bs ih =>
    simp only [List.length_cons] at hb
    exact ih (key p offset b (by omega) h) (by omega)

/-- Bytes written into a canonical page leave it canonical. -/
theorem pageWrite_pageWf {p : Page} {offset : Nat} {bs : List Byte} (h : pageWf p = true)
    (hb : offset + bs.length ≤ pageBytes) : pageWf (pageWrite p offset bs) = true :=
  pageWf_iff.2 ⟨pageWrite_wf p offset bs (pageWf_iff.1 h).1, pageWrite_below (pageWf_iff.1 h).2 hb⟩

/-- A map page that is written is canonical. -/
theorem mapPage_wf {seq : BitVec 32} {entries : List RetiredEntry} (h : entries.length ≤ retiredLimit) :
    pageWf (mapPage seq entries) = true := by
  refine pageWrite_pageWf (by decide) ?_
  have hb : ∀ es : List RetiredEntry, (es.flatMap RetiredEntry.bytes).length = 3 * es.length := by
    intro es
    induction es with
    | nil => rfl
    | cons e es ih =>
      rw [List.flatMap_cons, List.length_append, ih]
      simp [RetiredEntry.bytes, bytes16]
      omega
  simp only [mapPageBytes, List.length_append, hb, bytes32, bytes16, List.length_cons, List.length_nil]
  simp only [retiredLimit] at h
  simp only [pageBytes]
  omega

/-- The array as shipped is canonical (R17). -/
theorem factoryArray_canonical : factoryArray.canonical = true := by decide +kernel

end Sys2Proof.Machine
end

