-- ==== Sys2Proof/Laws/Ops.lean ====
section
/-! SUPPORT. What the operations that every meaning is made of can do, each said once: a transaction, a happening, the end of
a step, a slot by its tag. -/

namespace Sys2Proof.Machine

/-! ### Transactions and happenings -/

theorem State.ready_iff {s : State} :
    s.ready = true ↔ s.heldInReset = false ∧ s.link.resetTaken = false ∧ s.link.awaitRise = false := by
  simp [State.ready, and_assoc]

/-- A die that takes the transaction runs the command's own effect. -/
theorem State.transaction_ready {s : State} (h : s.ready = true) (act : State → State) :
    s.transaction act = .next (act s) := by
  obtain ⟨a, b, c⟩ := State.ready_iff.1 h
  simp [State.transaction, a, b, c]

/-- A transaction always answers a next state: the command's effect, the state as it was, or the end of the wait for HSEL_N's
rise. -/
theorem State.transaction_cases (s : State) (act : State → State) :
    (s.ready = true ∧ s.transaction act = .next (act s)) ∨
      ((s.heldInReset = true ∨ s.link.resetTaken = true) ∧ s.transaction act = .next s) ∨
      (s.heldInReset = false ∧ s.link.resetTaken = false ∧ s.link.awaitRise = true ∧
        s.transaction act = .next { s with link := { s.link with awaitRise := false } }) := by
  cases h1 : s.heldInReset <;> cases h2 : s.link.resetTaken <;> cases h3 : s.link.awaitRise <;>
    simp [State.transaction, State.ready, h1, h2, h3]

/-- A happening that answers a next state was enabled, out of reset, and had its effect. -/
theorem State.happening_next {s t : State} {enabled : Bool} {r : Refusal} {act : State → State}
    (h : s.happening enabled r act = .next t) : s.heldInReset = false ∧ enabled = true ∧ t = act s := by
  simp only [State.happening] at h
  split at h
  · cases h
  · rename_i hc
    simp only [Bool.or_eq_true, Bool.not_eq_true', not_or, Bool.not_eq_true, Bool.not_eq_false] at hc
    injection h with h
    exact ⟨hc.1, hc.2, h.symm⟩

/-- An enabled happening out of reset has its effect. -/
theorem State.happening_enabled {s : State} (hr : s.heldInReset = false) (r : Refusal) (act : State → State) :
    s.happening true r act = .next (act s) := by
  simp [State.happening, hr]

/-- A happening never faults. -/
theorem State.happening_no_fault (s : State) (enabled : Bool) (r : Refusal) (act : State → State) (f : Fault) :
    s.happening enabled r act ≠ .fault f := by
  simp only [State.happening]
  split <;> simp

/-! ### The end of a sense or a verify -/

/-- An end of a step that answers a next state found that step under way out of reset, and concluded the bank's own change. -/
theorem State.stepEnd_next {s t : State} {b : BankId} {ended : Step} {finish : Bank → Bool → Option Turn}
    (h : s.stepEnd b ended finish = .next t) :
    s.heldInReset = false ∧ (s.bank b).step = some ended ∧
      ∃ u, finish (s.bank b) (s.gateAdmits b) = some u ∧ t = s.conclude b u := by
  simp only [State.stepEnd] at h
  split at h
  · cases h
  · rename_i hc
    simp only [Bool.or_eq_true, decide_eq_true_eq, not_or, Bool.not_eq_true, not_not] at hc
    split at h
    · cases h
    · rename_i u hu
      injection h with h
      exact ⟨hc.1, hc.2, u, hu, h.symm⟩

/-- An end of a step that finds the step and the operation concludes the bank's own change. -/
theorem State.stepEnd_some {s : State} {b : BankId} {ended : Step} {finish : Bank → Bool → Option Turn} {u : Turn}
    (hr : s.heldInReset = false) (hs : (s.bank b).step = some ended)
    (hu : finish (s.bank b) (s.gateAdmits b) = some u) : s.stepEnd b ended finish = .next (s.conclude b u) := by
  simp [State.stepEnd, hr, hs, hu]

/-- An end of a step faults only where the bank has no operation that the step can belong to. -/
theorem State.stepEnd_fault {s : State} {b : BankId} {ended : Step} {finish : Bank → Bool → Option Turn} {f : Fault}
    (h : s.stepEnd b ended finish = .fault f) :
    s.heldInReset = false ∧ (s.bank b).step = some ended ∧ finish (s.bank b) (s.gateAdmits b) = none := by
  simp only [State.stepEnd] at h
  split at h
  · cases h
  · rename_i hc
    simp only [Bool.or_eq_true, decide_eq_true_eq, not_or, Bool.not_eq_true, not_not] at hc
    split at h
    · rename_i hu
      exact ⟨hc.1, hc.2, hu⟩
    · cases h

/-! ### A slot by its tag -/

theorem findTag_some {tag : Byte} {q : List Slot} {sl : Slot} (h : findTag tag q = some sl) : sl ∈ q ∧ sl.tag = tag := by
  refine ⟨List.mem_of_find?_eq_some h, ?_⟩
  have := List.find?_some h
  simpa using this

theorem findTag_none {tag : Byte} {q : List Slot} (h : findTag tag q = none) : ∀ sl ∈ q, sl.tag ≠ tag := by
  intro sl hm
  have := List.find?_eq_none.1 h sl hm
  simpa using this

/-- A slot found by its tag stands in the queue of the bank it is found in. -/
theorem State.slotOfTag_some {s : State} {tag : Byte} {b : BankId} {sl : Slot} (h : s.slotOfTag tag = some (b, sl)) :
    sl ∈ (s.bank b).queue ∧ sl.tag = tag := by
  simp only [State.slotOfTag] at h
  split at h
  · rename_i x hx
    injection h with h
    injection h with hb hsl
    subst hb hsl
    exact findTag_some hx
  · split at h
    · rename_i x hx
      injection h with h
      injection h with hb hsl
      subst hb hsl
      exact findTag_some hx
    · cases h

/-- Where no slot is found by a tag, no bank queue holds it. -/
theorem State.slotOfTag_none {s : State} {tag : Byte} (h : s.slotOfTag tag = none) :
    ∀ b, ∀ sl ∈ (s.bank b).queue, sl.tag ≠ tag := by
  simp only [State.slotOfTag] at h
  split at h
  · cases h
  · rename_i h0
    split at h
    · cases h
    · rename_i h1
      intro b
      cases b
      · exact findTag_none h0
      · exact findTag_none h1

theorem mem_removeTag {tag : Byte} {q : List Slot} {sl : Slot} : sl ∈ removeTag tag q ↔ sl ∈ q ∧ sl.tag ≠ tag := by
  simp [removeTag]

theorem length_updateTag (tag : Byte) (f : Slot → Slot) (q : List Slot) : (updateTag tag f q).length = q.length := by
  simp [updateTag]

end Sys2Proof.Machine
end

