-- ==== Sys2Proof/Laws/PerInstr.lean ====
section
/-! SUPPORT. What holds of every command as syntax, one lemma a constructor: the code and the parameter bytes that a command is
sent as read back as the command (R170, R171, R181). -/

namespace Sys2Proof.Laws

/-- The code and the parameters that a well-formed command is sent as are read as that command, and their number fits the count
field; a happening is not sent at all. -/
def CommandOf.Statement (c : Instr) : Prop :=
  c.wf = true →
    match c.command? with
    | none => c.encode = none
    | some x => commandOf x.1 x.2 = c ∧ x.2.length ≤ 65535

theorem CommandOf.configure (params : List Byte) : CommandOf.Statement (.configure params) := fun h => ⟨rfl, of_decide_eq_true h⟩

theorem CommandOf.join (params : List Byte) : CommandOf.Statement (.join params) := fun h => ⟨rfl, of_decide_eq_true h⟩

theorem CommandOf.leave (params : List Byte) : CommandOf.Statement (.leave params) := fun h => ⟨rfl, of_decide_eq_true h⟩

theorem CommandOf.postRead (params : List Byte) : CommandOf.Statement (.postRead params) := fun h => ⟨rfl, of_decide_eq_true h⟩

theorem CommandOf.postProgram (params : List Byte) : CommandOf.Statement (.postProgram params) := fun h => ⟨rfl, of_decide_eq_true h⟩

theorem CommandOf.postFinish (params : List Byte) : CommandOf.Statement (.postFinish params) := fun h => ⟨rfl, of_decide_eq_true h⟩

theorem CommandOf.postErase (params : List Byte) : CommandOf.Statement (.postErase params) := fun h => ⟨rfl, of_decide_eq_true h⟩

theorem CommandOf.abort (params : List Byte) : CommandOf.Statement (.abort params) := fun h => ⟨rfl, of_decide_eq_true h⟩

theorem CommandOf.loadStaging (params : List Byte) : CommandOf.Statement (.loadStaging params) := fun h => ⟨rfl, of_decide_eq_true h⟩

theorem CommandOf.fetchOutput (params : List Byte) : CommandOf.Statement (.fetchOutput params) := fun h => ⟨rfl, of_decide_eq_true h⟩

theorem CommandOf.releaseOutput (params : List Byte) : CommandOf.Statement (.releaseOutput params) := fun h => ⟨rfl, of_decide_eq_true h⟩

theorem CommandOf.takeCompletions (params : List Byte) : CommandOf.Statement (.takeCompletions params) := fun h => ⟨rfl, of_decide_eq_true h⟩

theorem CommandOf.readStatus (params : List Byte) : CommandOf.Statement (.readStatus params) := fun h => ⟨rfl, of_decide_eq_true h⟩

theorem CommandOf.readBudgetTable (params : List Byte) : CommandOf.Statement (.readBudgetTable params) := fun h => ⟨rfl, of_decide_eq_true h⟩

theorem CommandOf.readRetired (params : List Byte) : CommandOf.Statement (.readRetired params) := fun h => ⟨rfl, of_decide_eq_true h⟩

theorem CommandOf.dieReset (params : List Byte) : CommandOf.Statement (.dieReset params) := fun h => ⟨rfl, of_decide_eq_true h⟩

theorem CommandOf.unknownCommand (code : Byte) (params : List Byte) : CommandOf.Statement (.unknownCommand code params) := by
  intro h
  simp only [Instr.wf, Bool.and_eq_true, Bool.not_eq_true', countFits, decide_eq_true_eq] at h
  refine ⟨?_, h.2⟩
  have hc : ∀ x ∈ commandCodes, code ≠ x := by
    rintro x hx rfl
    have := List.contains_iff_mem.mpr hx
    rw [h.1] at this
    cases this
  simp only [commandCodes, List.mem_cons, List.not_mem_nil, or_false, forall_eq_or_imp, forall_eq] at hc
  simp only [commandOf]
  repeat rw [if_neg (by tauto)]

theorem CommandOf.transactionCut (clockedIn : List Byte) : CommandOf.Statement (.transactionCut clockedIn) := fun _ => rfl

theorem CommandOf.dieResetBegin (source : ResetSource) : CommandOf.Statement (.dieResetBegin source) := fun _ => rfl

theorem CommandOf.dieResetEnd (source : ResetSource) (straps : StationId) (nonce : Nonce) (hselLow : Bool) : CommandOf.Statement (.dieResetEnd source straps nonce hselLow) := fun _ => rfl

theorem CommandOf.pulseEnd (bank : BankId) : CommandOf.Statement (.pulseEnd bank) := fun _ => rfl

theorem CommandOf.readSenseEnd (bank : BankId) (cells : Option Page) : CommandOf.Statement (.readSenseEnd bank cells) := fun _ => rfl

theorem CommandOf.blankCheckEnd (bank : BankId) : CommandOf.Statement (.blankCheckEnd bank) := fun _ => rfl

theorem CommandOf.mapScanSenseEnd (bank : BankId) (cells : Option Page) : CommandOf.Statement (.mapScanSenseEnd bank cells) := fun _ => rfl

theorem CommandOf.coarseVerifyEnd (bank : BankId) (passed : Bool) : CommandOf.Statement (.coarseVerifyEnd bank passed) := fun _ => rfl

theorem CommandOf.fineVerifyEnd (bank : BankId) (passed : Bool) : CommandOf.Statement (.fineVerifyEnd bank passed) := fun _ => rfl

theorem CommandOf.eraseVerifyEnd (bank : BankId) (passed : Bool) : CommandOf.Statement (.eraseVerifyEnd bank passed) := fun _ => rfl

theorem CommandOf.mapEraseVerifyEnd (bank : BankId) (passed : Bool) : CommandOf.Statement (.mapEraseVerifyEnd bank passed) := fun _ => rfl

theorem CommandOf.mapPageVerifyEnd (bank : BankId) (passed : Bool) : CommandOf.Statement (.mapPageVerifyEnd bank passed) := fun _ => rfl

theorem CommandOf.waitLimitExpiry (tag : Byte) : CommandOf.Statement (.waitLimitExpiry tag) := fun _ => rfl

theorem CommandOf.releaseHoldOffExpiry : CommandOf.Statement .releaseHoldOffExpiry := fun _ => rfl

theorem CommandOf.renewalDue : CommandOf.Statement .renewalDue := fun _ => rfl

theorem CommandOf.selfLeaseLapse : CommandOf.Statement .selfLeaseLapse := fun _ => rfl

theorem CommandOf.lastHeardAgeExpiry (station : StationId) : CommandOf.Statement (.lastHeardAgeExpiry station) := fun _ => rfl

theorem CommandOf.learningWindowEnd : CommandOf.Statement .learningWindowEnd := fun _ => rfl

theorem CommandOf.busStuckSet : CommandOf.Statement .busStuckSet := fun _ => rfl

theorem CommandOf.busStuckClear : CommandOf.Statement .busStuckClear := fun _ => rfl

theorem CommandOf.attemptStart : CommandOf.Statement .attemptStart := fun _ => rfl

theorem CommandOf.frameEnd (recessive : Nat) (bits : List Bool) : CommandOf.Statement (.frameEnd recessive bits) := fun _ => rfl

end Sys2Proof.Laws
end

