-- ==== Sys2Proof/Tests/Slice0.lean ====
section
/-! SUPPORT. The tests of the model: ill-formed commands that WellFormed refuses, single steps of the manual's own examples and
tables, and for every statement that has hypotheses a state that meets them, clause by clause. -/

namespace Sys2Proof.Tests

open Sys2Proof.Machine

-- One theorem at a time: many kernel evaluations at once would each take a thread.
set_option Elab.async false

/-! ### Small states -/

/-- The next state of an outcome. -/
def nextOf : Host.Outcome State Fault Refusal → Option State
  | .next t => some t
  | .fault _ => none
  | .refused _ => none

/-- The refusal of an outcome. -/
def refusalOf : Host.Outcome State Fault Refusal → Option Refusal
  | .next _ => none
  | .fault _ => none
  | .refused r => some r

/-- The response of a command. -/
def answerOf (c : Instr) (s : State) : Option (List Byte) := (nextOf (exec c s)).map fun t => t.link.response

/-- Something of the next state. -/
def after {α : Type} (c : Instr) (s : State) (f : State → α) : Option α := (nextOf (exec c s)).map f

/-- A bank whose factory map page has been loaded (R161). -/
def loaded : Bank :=
  { Bank.afterReset factoryArray with
    internal := none, mapState := .loaded, mapBlock := some .a, nextMapPage := 1, mapSeq := 1#32 }

/-- B = 16, L = 4 ms, W = 10 ms (the examples of chapters 6 to 9). -/
def shared16 : Settings := ⟨.shared, 16, 4, 10⟩

/-- An own entry that holds. -/
def holding (n : Nat) : Entry := ⟨true, n, none, 0#4, 0, some 0#16⟩

/-- Station 0 in a state on a shared bus with its own entry, both maps loaded. -/
def station (st : StationState) (own : Entry) : State :=
  { State.reset with
    bank0 := loaded, bank1 := loaded
    ctl := { State.reset.ctl with
      station := st, settings := some shared16, digest := digestOf 16 4, table := clearedTable.put 0#4 own } }

/-- A station in service that holds `n`. -/
def service (n : Nat) : State := station .inService (holding n)

/-- A SOLO die with B = 12, W = 0 and both maps loaded, holding `n` (the examples of chapters 2 to 5). -/
def solo (n : Nat) : State :=
  { State.reset with
    bank0 := loaded, bank1 := loaded
    ctl := { State.reset.ctl with
      station := .solo, settings := some ⟨.solo, 12, 4, 0⟩, digest := digestOf 12 4
      table := clearedTable.put 0#4 { holding n with nonce := none } } }

/-- A slot in a state. -/
def slot (tag : Byte) (op : HostOp) (b : BankId) (block : Nat) (st : SlotState) : Slot :=
  { Slot.posted tag op b block with state := st }

/-- A READ of bank 0 behind the head. -/
def queuedRead (tag : Byte) (block w : Nat) : Slot := slot tag (.read w .low) .zero block .queued

/-- Three pages told apart by their first byte. -/
def pages (x : Byte) : Trio Page := ⟨[(0, x)], [(0, x + 1#8)], [(0, x + 2#8)]⟩

/-- A bank with a block open at a next word line, which is not 0. -/
def openAt (block next : Nat) (x : Byte) : Bank :=
  { loaded with
    array := factoryArray.setMarks block (next - 1) (marksOfCount 2)
    openBlock := some ⟨block, next⟩, pendingSlot := some ⟨block, next - 1, pages x⟩ }

/-- An ERASE of block 300 with tag 10, at a step after some pulses. -/
def erasing (pulses : Nat) (st : Machine.Step) (behind : List Slot) : Bank :=
  { loaded with
    array := factoryArray.setEraseComplete 300 false
    queue := { slot 10#8 (.erase true) .zero 300 .running with pulses := pulses, arrayTouched := true } :: behind
    step := some st }

/-- A PROGRAM of a word line of block 12 with tag 61, at a step of a pass, with the block open where the word line is not 0. -/
def programming (w : Nat) (p : Pass) (pulses : Nat) (st : Machine.Step) : Bank :=
  let before := if w = 0 then loaded else openAt 12 w 0xD0#8
  { before with
    array := (before.array.setMarks 12 w (marksOfCount 2)).setMarks 12 p.wordLine
      (match p.kind with | .coarse => marksOfCount 1 | .fine => marksOfCount 3)
    latch := some (pages 0xE0#8), pass := some p, passPulses := pulses
    queue := [{ slot 61#8 (.program w) .zero 12 .running with pulses := pulses, arrayTouched := true }]
    step := some st }

/-- A FINISH of block 12 in its fine pass of word line 4. -/
def finishing (pulses : Nat) (st : Machine.Step) : Bank :=
  { programming 5 ⟨.fine, 4⟩ pulses st with
    latch := none
    queue := [{ slot 63#8 .finish .zero 12 .running with pulses := pulses, arrayTouched := true }] }

/-- A failed PROGRAM of block 500 that waits for its map work. -/
def recording (op : InternalOp) (begun : Bool) (st : Option Machine.Step) : Bank :=
  { loaded with
    internal := some ⟨op, begun⟩, step := st, retired := [⟨500, .programFail⟩]
    queue := [{ slot 7#8 (.program 9) .zero 500 .recording with
      pulses := 14, arrayTouched := true, failure := some ⟨.programFail, some .fine, some 8⟩ }] }

/-- The same state with another bank 0. -/
def withBank0 (s : State) (bk : Bank) : State := { s with bank0 := bk }

/-- A DONE slot of a READ. -/
def doneRead (tag : Byte) : DoneSlot := (slot tag (.read 2 .middle) .one 7 .running).finish .ok noFlags

/-- A station state with other entries put in the table. -/
def withEntry (s : State) (k : StationId) (e : Entry) : State :=
  { s with ctl := { s.ctl with table := s.ctl.table.put k e } }

/-! ### WellFormed: an ill-formed term for each check -/

theorem test_wf_unknown_command_refuses_a_code : (Instr.unknownCommand 0x5A#8 []).wf = false := by decide
theorem test_wf_unknown_command_takes_another : (Instr.unknownCommand 0x5B#8 []).wf = true := by decide
theorem test_wf_cut_refuses_a_whole_phase : (Instr.transactionCut [0x12#8, 0#8, 0#8]).wf = false := by decide
theorem test_wf_cut_takes_a_short_phase : (Instr.transactionCut [0x41#8, 0#8, 1#8]).wf = true := by decide
theorem test_wf_frame_refuses_no_bits : (Instr.frameEnd 6 []).wf = false := by decide
theorem test_wf_sense_refuses_a_byte_past_the_page : (Instr.readSenseEnd .zero (some [(4416, 0#8)])).wf = false := by
  decide
theorem test_wf_sense_refuses_a_listed_blank : (Instr.mapScanSenseEnd .one (some [(3, 0xFF#8)])).wf = false := by decide
theorem test_wf_sense_refuses_falling_offsets : (Instr.readSenseEnd .one (some [(3, 0#8), (3, 1#8)])).wf = false := by
  decide
theorem test_wf_command_refuses_a_long_count (p : List Byte) (h : p.length = 65536) : (Instr.join p).wf = false := by
  simp only [Instr.wf, countFits, h]
  decide

/-! ### Transactions and their bytes -/

theorem test_no_word_spells_a_command : decodeTableWord 8 0x42 = none := by decide
theorem test_transaction_of_a_post_read :
    decodeTransaction [0x21#8, 0#8, 6#8, 9#8, 1#8, 0x07#8, 0xFD#8, 63#8, 2#8] =
      .postRead [9#8, 1#8, 0x07#8, 0xFD#8, 63#8, 2#8] := by decide +kernel
theorem test_transaction_of_a_status_read_ignores_the_response_phase :
    decodeTransaction [0x42#8, 0#8, 0#8, 0xFF#8, 0x5A#8] = .readStatus [] := by decide +kernel
theorem test_transaction_cut_in_its_parameters : decodeTransaction [0x2F#8, 0#8, 1#8] = .transactionCut [0x2F#8, 0#8, 1#8] := by
  decide +kernel
/-- JOIN is 0x12, 00010010, and a count of 0; three bits of a further byte are cut short and discarded (R169). -/
theorem test_hdi_bits_of_a_join :
    decodeHdi ([false, false, false, true, false, false, true, false] ++ List.replicate 16 false ++ [true, false, true]) =
      .join [] := by decide +kernel
theorem test_hdo_sends_the_high_bit_first :
    (List.range 8).map (fun k => State.reset.hdo true (some [0x09#8]) 3 (24 + k)) =
      [some false, some false, some false, some false, some true, some false, some false, some true] := by decide +kernel
theorem test_hdo_of_a_fetch :
    hdoBytes (some [0x00#8, 20#8, 0xA5#8]) 8 12 = List.replicate 8 0xFF#8 ++ [0x00#8, 20#8, 0xA5#8, 0xFF#8] := by decide
theorem test_hdo_without_a_command : hdoBytes none 3 4 = List.replicate 4 0xFF#8 := by decide

/-! ### Checks, digests and frames -/

/-- The four rows of the table of R129. -/
theorem test_digest_table :
    digestOf 16 4 = 164#8 ∧ digestOf 12 2 = 86#8 ∧ digestOf 240 16 = 64#8 ∧ digestOf 53 3 = 164#8 := by decide

/-- The polynomial of R159 with that initial value, over the digits 1 to 9, as its common name in the literature gives it. -/
theorem test_map_check_of_nine_digits :
    mapCheck [0x31#8, 0x32#8, 0x33#8, 0x34#8, 0x35#8, 0x36#8, 0x37#8, 0x38#8, 0x39#8] = 0x29B1#16 := by decide +kernel

/-- The polynomial of R130 over the digits 1 to 9, as its common name in the literature gives it. -/
theorem test_frame_check_of_nine_digits :
    frameCheckBits ([0x31#8, 0x32#8, 0x33#8, 0x34#8, 0x35#8, 0x36#8, 0x37#8, 0x38#8, 0x39#8].flatMap byteBits) = 0xF4#8 := by
  decide +kernel

/-- Bits 0 to 41 of station 2's CLAIM of the sequence of chapter 8: class 2, id 2, kind 1, digest 164, q 8, wait level 1. -/
theorem test_frame_of_the_chapter_8_claim :
    (frameLine 2#4 164#8 (.claim 8#8 1#4)).extractLsb' 13 42 =
      0b0_10_0010_001_10100100_00001000_0001_000000000000#42 := by decide +kernel

/-- Station 9 loses to station 2 in the first bit of the id field, bit 3 (chapter 8, bit 58 of the sequence). -/
theorem test_station_9_loses_in_the_id_field :
    firstDifference (frameLine 9#4 164#8 (.claim 6#8 2#4))
      (frameLine 9#4 164#8 (.claim 6#8 2#4) &&& frameLine 2#4 164#8 (.claim 8#8 1#4)) = some 3 := by decide +kernel

/-- An all-dominant frame passes its check, is malformed and is broken (R130, R142). -/
theorem test_all_dominant_frame : receiveTests 3#4 164#8 16 0#55 = .malformed ∧ lineBroken 0#55 = true := by
  decide +kernel

/-- A value above B, an EVICT of its sender and a one in a zero bit are out of range (R133). -/
theorem test_out_of_range_frames :
    receiveTests 3#4 164#8 16 (frameLine 5#4 164#8 (.claim 17#8 0#4)) = .outOfRange ∧
      receiveTests 3#4 164#8 16 (frameLine 5#4 164#8 (.evict 5#4 0#4)) = .outOfRange ∧
      payloadOf 5#3 1#24 = none := by decide +kernel

/-! ### The views after a die reset (R174, R183) -/

theorem test_status_view_after_reset :
    State.reset.statusView =
      [0, 0, 0, 0, 0, 0, 0, 0, 4, 0, 2, 2, 0, 0, 0, 0, 0, 0, 1, 0, 0, 255, 255, 255, 0, 1, 0, 0, 255, 255, 255, 0, 0] := by
  decide +kernel

theorem test_budget_view_after_reset :
    State.reset.budgetView = [0, 0, 0, 0, 0, 255] ++ List.replicate 128 0 := by decide +kernel

/-- Byte 12 of a record: flags (R182); bytes 5, 6, 8, 9 and 11: what is absent for a FINISH that fails (R65). -/
theorem test_record_of_a_failed_finish :
    (({ slot 63#8 .finish .one 300 .recording with
        pulses := 14, arrayTouched := true, failure := some ⟨.programFail, some .fine, some 4⟩ }).finishRecording
          mapWrittenFlag).record.bytes =
      [63, 3, 1, 1, 44, 255, 255, 4, 2, 4, 14, 255, 34] := by decide +kernel

/-! ### CONFIGURE, JOIN, LEAVE -/

theorem test_configure_solo_begins_both_map_loads :
    after (.configure [1#8, 12#8, 4#8, 0#8]) State.reset
      (fun t => (t.ctl.station, t.holding, t.bank0.step, t.bank1.step)) =
      some (.solo, 4, some (.sense .mapScan), some (.sense .mapScan)) := by decide +kernel
theorem test_configure_twice_is_wrong_state : answerOf (.configure [0#8, 16#8, 4#8, 10#8]) (service 0) = some [0x09#8] := by
  decide +kernel
theorem test_join_from_configured :
    after (.join []) (station .configured (holding 0)) (fun t => (t.ctl.station, t.ctl.own.known, t.ctl.transmit.hello)) =
      some (.learning, false, true) := by decide +kernel
theorem test_join_in_id_conflict_is_wrong_state : answerOf (.join []) (station .idConflict (holding 0)) = some [0x09#8] := by
  decide +kernel
theorem test_leave_with_units_sends_release :
    after (.leave []) (service 5) (fun t => (t.ctl.station, t.ctl.transmit.release, t.ctl.transmit.withdraw)) =
      some (.leaving, true, false) := by decide +kernel
theorem test_leave_with_nothing_goes :
    after (.leave []) (service 0) (fun t => (t.ctl.station, t.link.response)) = some (.configured, [0x00#8]) := by
  decide +kernel

/-! ### The queue example of chapter 2 -/

/-- Bank 0 after event 2: ERASE 40 RUNNING, five operations QUEUED behind it. -/
def event2 : State :=
  withBank0 (solo 8)
    { erasing 2 (.verify .erase) [] with
      queue := [{ slot 40#8 (.erase false) .zero 100 .running with pulses := 2, arrayTouched := true },
        slot 41#8 (.program 0) .zero 100 .queued, queuedRead 42#8 1 0, queuedRead 43#8 1 1, queuedRead 44#8 1 2,
        queuedRead 45#8 1 3] }

/-- The state of event 4: two READs in bank 1 besides. -/
def event4 : State :=
  { event2 with bank1 :=
    { loaded with
      queue := [{ slot 50#8 (.read 0 .low) .one 1 .running with path := some .sensing }, slot 51#8 (.read 1 .low) .one 1 .queued]
      step := some (.sense .read) } }

/-- Event 9: ERASE 40 carries a stop request at its second verify. -/
def event9 : State :=
  withBank0 (solo 8)
    { loaded with
      array := factoryArray.setEraseComplete 100 false
      staging := ⟨⟨true, []⟩, ⟨true, []⟩, ⟨true, []⟩⟩
      queue := [{ slot 40#8 (.erase false) .zero 100 .running with
          pulses := 2, arrayTouched := true, stopRequest := true },
        slot 41#8 (.program 0) .zero 100 .queued, queuedRead 42#8 1 0]
      step := some (.verify .erase) }

theorem test_event_1_erase_runs_under_6 :
    after (.postErase [40#8, 0#8, 0#8, 100#8, 0#8]) (solo 0)
      (fun t => (t.bank0.queue.map Slot.state, t.holding, t.bank0.array.eraseComplete 100)) =
      some ([.running], 6, false) := by decide +kernel
theorem test_event_3_queue_full : answerOf (.postRead [46#8, 0#8, 0#8, 1#8, 0#8, 0#8]) event2 = some [0x08#8] := by
  decide +kernel
theorem test_event_5_no_slot : answerOf (.postRead [52#8, 1#8, 0#8, 1#8, 0#8, 0#8]) event4 = some [0x07#8] := by
  decide +kernel
theorem test_event_6_read_completes_and_the_next_begins :
    after (.readSenseEnd .one none) event4
      (fun t => (t.bank1.output.holder, t.completions.map (fun d => d.record.outcome), t.bank1.queue.map Slot.state)) =
      some (some 50#8, [.erasedPage], [.running]) := by decide +kernel
theorem test_event_7_abort_of_a_queued_read :
    after (.abort [43#8]) event2 (fun t => (t.bank0.queue.map Slot.tag, t.completions.map (fun d => d.record.outcome))) =
      some ([40#8, 41#8, 42#8, 44#8, 45#8], [.aborted]) := by decide +kernel
theorem test_event_9_stop_is_honoured_and_the_program_begins_its_blank_check :
    after (.eraseVerifyEnd .zero false) event9
      (fun t => (t.completions.map (fun d => (d.record.outcome, d.record.pulses)), t.bank0.queue.map Slot.state,
        t.bank0.step, t.bank0.array.eraseComplete 100)) =
      some ([(.aborted, 2)], [.running, .queued], some (.sense .blankCheck), false) := by decide +kernel
theorem test_event_10_take_completions :
    after (.takeCompletions [3#8]) { solo 0 with completions := [doneRead 1#8, doneRead 2#8, doneRead 3#8, doneRead 4#8] }
      (fun t => (t.completions.length, t.link.response.length, t.link.response[1]?)) = some (1, 41, some 3#8) := by
  decide +kernel
theorem test_take_completions_of_nine : answerOf (.takeCompletions [9#8]) (solo 0) = some [0x04#8] := by decide +kernel
theorem test_abort_of_a_free_tag : answerOf (.abort [99#8]) event2 = some [0x06#8] := by decide +kernel

/-! ### Reading: the two READs and one buffer of chapter 3 -/

/-- Tag 20 in OUTPUT_WAIT, tag 21 of the pending word line behind it, the buffer held by tag 9. -/
def twoReads : State :=
  withBank0 (solo 0)
    { openAt 7 4 0xC0#8 with
      senseLatch := some ⟨[(5, 1#8)], allMarks, true, .ok, .read 20#8⟩
      output := ⟨some 9#8, [(0, 9#8)]⟩
      queue := [{ slot 20#8 (.read 2 .middle) .zero 7 .outputWait with path := some .sensing },
        slot 21#8 (.read 3 .low) .zero 7 .queued] }

theorem test_fetch_of_the_held_buffer :
    answerOf (.fetchOutput [0#8, 0#8, 0#8, 0#8, 2#8]) twoReads = some [0x00#8, 9#8, 9#8, 0xFF#8] := by decide +kernel
theorem test_fetch_of_513_bytes : answerOf (.fetchOutput [0#8, 0#8, 0#8, 2#8, 1#8]) twoReads = some [0x04#8] := by
  decide +kernel
theorem test_first_release :
    after (.releaseOutput [0#8]) twoReads
      (fun t => (t.bank0.output, t.bank0.queue.map (fun sl => (sl.state, sl.budgetWaited)),
        t.completions.map (fun d => d.record.tag))) =
      some (⟨some 20#8, [(5, 1#8)]⟩, [(.waiting, false)], [20#8]) := by decide +kernel
theorem test_second_release :
    after (.releaseOutput [0#8])
      (withBank0 (solo 0) { twoReads.bank0 with
        senseLatch := none, output := ⟨some 20#8, [(5, 1#8)]⟩
        queue := [{ slot 21#8 (.read 3 .low) .zero 7 .waiting with path := some .pending }] })
      (fun t => (t.bank0.output, t.bank0.queue, t.completions.map (fun d => d.record.flags))) =
      some (⟨some 21#8, [(0, 0xC0#8)]⟩, [], [fromPendingFlag]) := by decide +kernel
/-! ### Programming: chapter 4 -/

theorem test_load_staging_assembles_a_page :
    after (.loadStaging [0#8, 1#8, 0x11#8, 0x3F#8, 0#8, 1#8, 0xAA#8])
      (withBank0 (solo 0) { loaded with staging := ⟨⟨false, []⟩, ⟨true, [(10, 1#8)]⟩, ⟨false, []⟩⟩ })
      (fun t => t.bank0.staging.middle) = some ⟨true, [(10, 1#8), (4415, 0xAA#8)]⟩ := by decide +kernel
theorem test_load_staging_past_the_page :
    answerOf (.loadStaging [0#8, 1#8, 0x11#8, 0x40#8, 0#8, 1#8, 0xAA#8]) (solo 0) = some [0x04#8] := by decide +kernel
theorem test_program_without_staging_ends_incomplete :
    after (.postProgram [60#8, 1#8, 0#8, 12#8, 0#8]) (solo 0) (fun t => t.completions.map (fun d => d.record.outcome)) =
      some [.stagingIncomplete] := by decide +kernel
/-- Event 11: check 3 comes before check 5. -/
theorem test_event_11_program_is_not_open :
    after (.postProgram [64#8, 1#8, 0#8, 12#8, 3#8]) (solo 0) (fun t => t.completions.map (fun d => d.record.outcome)) =
      some [.notOpen] := by decide +kernel
/-- Event 2, after a passing blank check: the move and the first coarse pulse. -/
theorem test_blank_check_passes :
    after (.blankCheckEnd .zero)
      (withBank0 (solo 5) { loaded with
        staging := (pages 0xE0#8).map fun p => ⟨true, p⟩
        queue := [slot 60#8 (.program 0) .zero 12 .running], step := some (.sense .blankCheck) })
      (fun t => (t.bank0.latch.map Trio.high, t.bank0.staging.low.loaded, t.bank0.array.condition 12 0)) =
      some (some [(0, 0xE2#8)], false, .coarsePartial) := by decide +kernel
theorem test_blank_check_of_an_unclean_block :
    after (.blankCheckEnd .zero)
      (withBank0 (solo 5) { loaded with
        array := factoryArray.setEraseComplete 12 false
        queue := [slot 60#8 (.program 0) .zero 12 .running], step := some (.sense .blankCheck) })
      (fun t => t.completions.map (fun d => (d.record.outcome, d.record.flags.arrayTouched))) =
      some [(.notErased, false)] := by decide +kernel
/-- Event 4: word line 0 ends with its coarse pass after 3 pulses. -/
theorem test_event_4_word_line_0_ends :
    after (.coarseVerifyEnd .zero true) (withBank0 (solo 5) (programming 0 ⟨.coarse, 0⟩ 3 (.verify .coarse)))
      (fun t => (t.bank0.openBlock, t.bank0.pendingSlot, t.completions.map (fun d => d.record.pulses),
        t.bank0.array.condition 12 0)) =
      some (some ⟨12, 1⟩, some ⟨12, 0, pages 0xE0#8⟩, [3], .coarse) := by decide +kernel
/-- Event 6: the coarse pass of word line 1 passes and the fine pass of word line 0 begins. -/
theorem test_event_6_fine_pass_of_the_line_below :
    after (.coarseVerifyEnd .zero true)
      (withBank0 (solo 5) { programming 1 ⟨.coarse, 1⟩ 4 (.verify .coarse) with
        array := (factoryArray.setMarks 12 1 (marksOfCount 1)).setMarks 12 0 (marksOfCount 2) })
      (fun t => (t.bank0.array.condition 12 1, t.bank0.array.condition 12 0, t.bank0.step)) =
      some (.coarse, .finePartial, some (.pulse .fine)) := by decide +kernel
/-- Event 7: the fine pass of word line 0 passes after 6 pulses. -/
theorem test_event_7_fine_pass_ends_the_program :
    after (.fineVerifyEnd .zero true) (withBank0 (solo 5) (programming 1 ⟨.fine, 0⟩ 6 (.verify .fine)))
      (fun t => (t.bank0.openBlock, t.bank0.pendingSlot, t.completions.map (fun d => d.record.pulses),
        t.bank0.array.page 12 0 .middle)) =
      some (some ⟨12, 2⟩, some ⟨12, 1, pages 0xE0#8⟩, [6], [(0, 0xD1#8)]) := by decide +kernel
theorem test_finish_of_no_open_block :
    after (.postFinish [63#8, 0#8, 0#8, 12#8]) (solo 0) (fun t => t.completions.map (fun d => d.record.outcome)) =
      some [.notOpen] := by decide +kernel
/-- A fine pass fails after its 14th pulse; the block goes to the list and a MAP_UPDATE is admitted under 3 CU (R64, R162). -/
theorem test_fine_pass_fails :
    after (.fineVerifyEnd .zero false) (withBank0 (solo 5) (programming 5 ⟨.fine, 4⟩ 14 (.verify .fine)))
      (fun t => (t.bank0.retired, t.bank0.internal, t.bank0.openBlock, t.bank0.queue.map Slot.failure)) =
      some ([⟨12, .programFail⟩], some ⟨.mapUpdate 1, true⟩, none, [some ⟨.programFail, some .fine, some 4⟩]) := by
  decide +kernel

/-! ### Erasing: the two suspensions of chapter 5 -/

/-- The four operations behind ERASE 10. -/
def behind10 : List Slot :=
  [queuedRead 11#8 40 2, queuedRead 12#8 300 0, slot 13#8 (.read 5 .middle) .zero 40 .queued,
    slot 14#8 (.program 6) .zero 40 .queued]

/-- ERASE 10 at a verify, block 40 open with pending word line 5. -/
def eraseExample (pulses : Nat) (behind : List Slot) (holder : Option Byte) : State :=
  withBank0 (solo 6)
    { erasing pulses (.verify .erase) behind with
      array := (openAt 40 6 0xC0#8).array.setEraseComplete 300 false
      openBlock := (openAt 40 6 0xC0#8).openBlock, pendingSlot := (openAt 40 6 0xC0#8).pendingSlot
      output := ⟨holder, []⟩ }

theorem test_erase_event_2_suspends_for_tag_11 :
    after (.eraseVerifyEnd .zero false) (eraseExample 1 behind10 none)
      (fun t => (t.bank0.queue.map Slot.state, t.bank0.reservation, t.bank0.step)) =
      some ([.suspended, .running, .queued, .queued, .queued], 2, some (.sense .read)) := by decide +kernel
theorem test_erase_event_3_resumes_with_pulse_2 :
    after (.readSenseEnd .zero none)
      (withBank0 (solo 6) { (eraseExample 1 [] none).bank0 with
        step := some (.sense .read)
        queue := { slot 10#8 (.erase true) .zero 300 .suspended with
            pulses := 1, arrayTouched := true, suspensions := 1 } ::
          { queuedRead 11#8 40 2 with state := .running, path := some .sensing } :: behind10.drop 1 })
      (fun t => (t.bank0.queue.map Slot.state, t.bank0.queue.map Slot.pulses, t.bank0.output.holder)) =
      some ([.running, .queued, .queued, .queued], [2, 0, 0, 0], some 11#8) := by decide +kernel
/-- The end of a first erase pulse clears the block (R8). -/
theorem test_first_erase_pulse_clears_the_block :
    after (.pulseEnd .zero)
      (withBank0 (solo 6) { erasing 1 (.pulse .erase) [] with
        array := ((factoryArray.setEraseComplete 300 false).setMarks 300 63 allMarks).writePage 300 63 .high [(4415, 1#8)] })
      (fun t => (t.bank0.array.condition 300 63, t.bank0.array.page 300 63 .high, t.bank0.step)) =
      some (.erased, [], some (.verify .erase)) := by decide +kernel
theorem test_a_later_erase_pulse_changes_no_mark :
    after (.pulseEnd .zero)
      (withBank0 (solo 6) { erasing 2 (.pulse .erase) [] with array := factoryArray.setMarks 300 0 allMarks })
      (fun t => t.bank0.array.condition 300 0) = some .fine := by decide +kernel

/-! ### Reservations and the fit rule: chapters 6 and 7 -/

/-- Station 3's event 3: ERASE running under 6, a PROGRAM of word line 5 waits in bank 1, and the claim total is 11. -/
def refusal3 : State :=
  { withBank0 (service 6) (erasing 1 (.pulse .erase) []) with
    bank1 := { openAt 12 5 0xD0#8 with queue := [slot 2#8 (.program 5) .one 12 .waiting] } }

theorem test_claim_total_is_11 : refusal3.claimTotal = 11 ∧ refusal3.claimNeeded = true ∧ refusal3.need = 11 := by
  decide +kernel
/-- With B = 6 the waiting bank is left out of the total (R90). -/
theorem test_claim_total_leaves_out_what_passes_b :
    ({ refusal3 with ctl := { refusal3.ctl with settings := some ⟨.shared, 6, 4, 10⟩ } }).claimTotal = 6 := by
  decide +kernel
/-- R89's example: H = 8, an ERASE waiting in bank 0 and a PROGRAM waiting in bank 1. -/
def bothWait : State :=
  { withBank0 (service 8) { loaded with queue := [slot 1#8 (.erase false) .zero 100 .waiting] } with
    bank1 := { openAt 12 5 0xD0#8 with queue := [slot 2#8 (.program 5) .one 12 .waiting] } }

/-- The gate admits the ERASE alone, bank 0 first. -/
theorem test_bank_order_at_the_gate :
    (bothWait.settle.bank0.queue.map Slot.state, bothWait.settle.bank1.queue.map Slot.state,
      bothWait.settle.ctl.transmit.claim) = ([.running], [.waiting], true) := by decide +kernel

/-- Entries of stations 2, 5 and 9 at the start of the example of chapter 7. -/
def table7 : PerStation Entry :=
  ((clearedTable.put 2#4 ⟨true, 6, none, 4#4, 0, none⟩).put 5#4 ⟨true, 5, none, 9#4, 0, none⟩).put 9#4
    ⟨true, 0, some ⟨6, 2⟩, 3#4, 0, none⟩

/-- Event 1: station 2's claim for 8 at level 0 does not fit, and its refusal sets (8, 1) at generation 5. -/
theorem test_chapter_7_event_1 :
    fits 16 table7 2#4 8 0 = false ∧
      (applyFrame table7 2#4 (.claim 8#8 0#4) true).entry 2#4 = ⟨true, 6, some ⟨8, 1⟩, 5#4, 0, none⟩ := by decide +kernel

/-- Event 3: after station 5's RELEASE 0 the claim for 8 at level 1 fits, while one for 11 at level 1 does not and at level 2
does. -/
theorem test_chapter_7_event_3 :
    ((fun t => (fits 16 t 2#4 8 1, fits 16 t 2#4 11 1, fits 16 t 2#4 11 2, tableTotal t))
      (applyFrame table7 5#4 (.release 0#8) false)) = (true, false, true, 6) := by decide +kernel

/-- The sequence of a renewal and an eviction: EVICT (3, 6) zeroes entry 3 at generation 6 and is stale at 7. -/
theorem test_chapter_7_eviction :
    (applyFrame (clearedTable.put 3#4 ⟨true, 5, none, 6#4, 21, none⟩) 7#4 (.evict 3#4 6#4) false).entry 3#4 =
        ⟨true, 0, none, 7#4, 0, none⟩ ∧
      (applyFrame (clearedTable.put 3#4 ⟨true, 5, none, 7#4, 21, none⟩) 7#4 (.evict 3#4 6#4) false).entry 3#4 =
        ⟨true, 5, none, 7#4, 0, none⟩ := by decide +kernel

theorem test_wait_limit_ends_a_waiting_erase :
    after (.waitLimitExpiry 1#8)
      (withBank0 (service 0) { loaded with queue := [{ slot 1#8 (.erase false) .zero 100 .waiting with budgetWaited := true }] })
      (fun t => (t.completions.map (fun d => (d.record.outcome, d.record.flags.budgetWaited)), t.bank0.queue)) =
      some ([(.budgetTimeout, true)], []) := by decide +kernel
/-- Event 10 of chapter 6: the hold-off runs out and RELEASE is queued. -/
theorem test_hold_off_runs_out :
    after .releaseHoldOffExpiry { service 11 with ctl := { (service 11).ctl with holdOff := some 0 } }
      (fun t => (t.ctl.transmit.release, t.ctl.holdOff)) = some (true, none) := by decide +kernel
theorem test_solo_release_is_applied_at_once :
    after .releaseHoldOffExpiry { solo 6 with ctl := { (solo 6).ctl with holdOff := some 2 } }
      (fun t => (t.holding, t.ctl.own.generation)) = some (0, 1#4) := by decide +kernel
theorem test_renewal_gives_way_to_a_release :
    after .renewalDue { service 5 with ctl := { (service 5).ctl with
        renewal := some 0, transmit := { emptyTransmit with release := true } } }
      (fun t => (t.ctl.transmit.renew, t.ctl.renewal)) = some (false, some 20) := by decide +kernel
theorem test_lapse_pauses_the_running_bank :
    after .selfLeaseLapse
      (withBank0 { service 6 with ctl := { (service 6).ctl with renewal := some 20 } } (erasing 1 (.pulse .erase) []))
      (fun t => (t.ctl.lapsed, t.bank0.pauseOrder, t.holding)) = some (true, true, 6) := by decide +kernel
theorem test_silent_holder_is_evicted :
    after (.lastHeardAgeExpiry 3#4) (withEntry (service 0) 3#4 ⟨true, 5, none, 6#4, 40, none⟩)
      (fun t => t.ctl.transmit.evict.entry 3#4) = some (some 6#4) := by decide +kernel
theorem test_window_end_forms_the_first_claim :
    after .learningWindowEnd
      { State.reset with ctl := { (station .learning (holding 0)).ctl with window := some 40 } }
      (fun t => (t.ctl.station, t.ctl.transmit.claim, t.claimTotal)) = some (.inService, true, 4) := by decide +kernel

/-! ### The bus: chapters 8 and 9 -/

/-- An attempt of a station with a CLAIM and a RENEW queued starts with the RENEW (R138). -/
theorem test_attempt_takes_the_renew_first :
    after .attemptStart
      { service 5 with
        ctl := { (service 5).ctl with transmit := { emptyTransmit with claim := true, renew := true } }
        port := { Port.afterReset with recessiveCount := 6 } }
      (fun t => (t.port.sending.map Attempt.payload, t.port.framing)) =
      some (some (.renew 5#8 0#8 0#4), .inFrame []) := by decide +kernel
theorem test_no_attempt_on_a_stuck_bus :
    after .attemptStart { service 5 with
        ctl := { (service 5).ctl with transmit := { emptyTransmit with renew := true } }
        port := { Port.afterReset with stuck := true, recessiveCount := 6 } } (fun t => t.port.sending) = some none := by
  decide +kernel
theorem test_stuck_set :
    after .busStuckSet (station .configured (holding 0)) (fun t => (t.port.stuck, t.port.dominantCount)) =
      some (true, 128) := by decide +kernel
theorem test_stuck_clear :
    after .busStuckClear { station .rxFault (holding 0) with port := { Port.afterReset with stuck := true, dominantCount := 128 } }
      (fun t => t.port.stuck) = some false := by decide +kernel
/-- A peer's CLAIM that does not fit: this station objects, and the refusal is applied (R115, R107). -/
theorem test_unfit_claim_is_objected_to :
    after (.frameEnd 6 (lineBits (frameLine 2#4 164#8 (.claim 11#8 0#4)))) (service 6)
      (fun t => (t.port.droveObjection, (t.ctl.table.entry 2#4).waiting, t.ctl.diverged)) =
      some (true, some ⟨11, 1⟩, false) := by decide +kernel
/-- A CLAIM judged unfit: in its objection slot the station drives dominant, and once LEAVE has been taken it does not (R115). -/
theorem test_leaving_station_leaves_the_objection_slot :
    (let p : Port := { Port.afterReset with
        framing := .inFrame ((lineBits (frameLine 2#4 164#8 (.claim 11#8 0#4))).take 51), judgement := some false };
      (({ service 6 with port := p } : State).drives, ({ station .leaving (holding 6) with port := p } : State).drives)) =
      (false, true) := by decide +kernel
/-- A foreign digest takes the station off the bus (R151). -/
theorem test_foreign_digest :
    after (.frameEnd 6 (lineBits (frameLine 2#4 86#8 (.hello 1#16)))) (service 6)
      (fun t => (t.ctl.station, t.holding, t.link.stationNews, t.ctl.own.generation)) =
      some (.configMismatch, 0, true, 0#4) := by decide +kernel

/-! ### The map: chapter 10 -/

/-- The factory map page reads back (R17, R159). -/
theorem test_factory_page_is_valid :
    readMapPage ((factoryArray.sense 2046 0 .low none .mapScan).page) = some (1#32, []) := by decide +kernel
/-- The end of a scan that found the factory page: word line 0 of block B is ERASED (R161). -/
theorem test_scan_settles_the_factory_map :
    after (.mapScanSenseEnd .zero none)
      (withBank0 (solo 2) { Bank.afterReset factoryArray with
        internal := some ⟨.mapLoad ⟨.b, 0, some ⟨1#32, [], .a, 0⟩, some 1, none⟩, true⟩, step := some (.sense .mapScan) })
      (fun t => (t.bank0.mapState, t.bank0.mapBlock, t.bank0.nextMapPage, t.bank0.mapSeq, t.bank0.internal)) =
      some (.loaded, some .a, 1, 1#32, none) := by decide +kernel
theorem test_scan_that_finds_nothing_is_lost :
    after (.mapScanSenseEnd .zero none)
      (withBank0 (solo 2) { Bank.afterReset factoryArray with
        internal := some ⟨.mapLoad ⟨.b, 0, none, some 1, none⟩, true⟩, step := some (.sense .mapScan) })
      (fun t => (t.bank0.mapState, t.link.mapNews0, t.attentionAsserted)) = some (.lost, true, true) := by decide +kernel
/-- The sequence of chapter 10: the write at A 63 fails with the run at 1, and a MAP_REWRITE follows under 6 CU. -/
theorem test_map_update_out_of_pages :
    after (.mapPageVerifyEnd .zero false)
      (withBank0 (solo 3) { recording (.mapUpdate 6) true (some (.verify .mapPage)) with
        nextMapPage := 63, mapFailureRun := 1, mapSeq := 62#32 })
      (fun t => (t.bank0.nextMapPage, t.bank0.mapFailureRun, t.bank0.internal, t.holding)) =
      some (64, 2, some ⟨.rewriteErase 1, true⟩, 6) := by decide +kernel
/-- The write at B 0 passes: B is current, next page 1, sequence 63, and the slot ends MAP_WRITTEN. -/
theorem test_map_rewrite_passes :
    after (.mapPageVerifyEnd .zero true)
      (withBank0 (solo 6) { recording (.rewritePage 0 3) true (some (.verify .mapPage)) with
        nextMapPage := 64, mapFailureRun := 2, mapSeq := 62#32 })
      (fun t => (t.bank0.mapBlock, t.bank0.nextMapPage, t.bank0.mapSeq,
        t.completions.map (fun d => d.record.flags.mapWritten))) =
      some (some .b, 1, 63#32, [true]) := by decide +kernel
theorem test_map_erase_passes_and_the_first_page_begins :
    after (.mapEraseVerifyEnd .zero true)
      (withBank0 (solo 6) { recording (.rewriteErase 3) true (some (.verify .mapErase)) with
        array := factoryArray.setEraseComplete 2047 false, nextMapPage := 64 })
      (fun t => (t.bank0.array.eraseComplete 2047, t.bank0.array.condition 2047 0, t.bank0.internal)) =
      some (true, .coarsePartial, some ⟨.rewritePage 0 1, true⟩) := by decide +kernel
theorem test_eighth_map_erase_fails :
    after (.mapEraseVerifyEnd .zero false)
      (withBank0 (solo 6) { recording (.rewriteErase 8) true (some (.verify .mapErase)) with nextMapPage := 64 })
      (fun t => (t.bank0.mapState, t.bank0.nextMapPage, t.completions.map (fun d => d.record.flags.mapDegraded))) =
      some (.degraded, 64, [true]) := by decide +kernel
theorem test_read_retired :
    answerOf (.readRetired [0#8]) (withBank0 (solo 0) { loaded with retired := [⟨500, .programFail⟩] }) =
      some [0x00#8, 1#8, 1#8, 1#8, 0#8, 0#8, 0#8, 1#8, 0#8, 1#8, 0x01#8, 0xF4#8, 2#8] := by decide +kernel

/-! ### The host link: chapter 11 -/

theorem test_read_status_clears_diverged :
    after (.readStatus [])
      { service 0 with
        ctl := { (service 0).ctl with diverged := true }
        link := { Link.afterReset false with divergedNews := true } }
      (fun t => (t.ctl.diverged, t.attentionAsserted, t.link.response[7]?, t.link.response[33]?)) =
      some (false, false, some 2#8, some 2#8) := by decide +kernel
theorem test_read_budget_table_length :
    (answerOf (.readBudgetTable []) (service 6)).map List.length = some 135 := by decide +kernel
theorem test_unknown_code : answerOf (.unknownCommand 0x14#8 [1#8]) State.reset = some [0x01#8] := by decide +kernel
theorem test_cut_transaction_changes_nothing :
    nextOf (exec (.transactionCut [0x31#8, 0#8]) State.reset) = some State.reset := by decide +kernel
theorem test_die_reset_waits_for_its_transaction :
    after (.dieReset []) (service 6) (fun t => (t.link.response, t.heldInReset, t.holding)) =
      some ([0x00#8], false, 6) := by decide +kernel
theorem test_reset_begin_needs_the_command :
    refusalOf (exec (.dieResetBegin .command) (service 6)) = some .resetSourceAbsent := by decide +kernel
/-- A cut coarse pulse leaves COARSE_PARTIAL (R16). -/
theorem test_reset_cuts_a_coarse_pulse :
    after (.dieResetBegin .pin) (withBank0 (service 5) (programming 0 ⟨.coarse, 0⟩ 2 (.pulse .coarse)))
      (fun t => (t.bank0.step, t.bank0.array.condition 12 0, t.attentionAsserted)) =
      some (none, .coarsePartial, false) := by decide +kernel
theorem test_reset_end_samples_the_straps :
    after (.dieResetEnd .pin 6#4 0xBEEF#16 false)
      { withBank0 (service 5) (programming 0 ⟨.coarse, 0⟩ 2 (.pulse .coarse)) with inReset := ⟨false, true, false⟩ }
      (fun t => (t.ctl.id, t.ctl.nonce, t.ctl.station, t.bank0.array.condition 12 0, t.need)) =
      some (6#4, 0xBEEF#16, .unconfigured, .coarsePartial, 4) := by decide +kernel

/-! ### Witnesses: for each statement, states and operands that meet its hypotheses, clause by clause -/

/-- An operation of a tag stands in a bank's queue in a state. -/
def stands (s : State) (b : BankId) (tag : Byte) (st : SlotState) : Bool :=
  (s.bank b).queue.any fun sl => decide (sl.tag = tag) && decide (sl.state = st)

/-- A die in service that RESET_N holds in reset. -/
def held : State := { service 5 with inReset := ⟨false, true, false⟩ }

/-- A DIE_RESET has been taken. -/
def taken : State := { service 5 with link := { Link.afterReset false with resetTaken := true } }

/-- A transaction straddles the end of the reset. -/
def straddles : State := { State.reset with link := Link.afterReset true }

theorem witness_StepTakesTheFrontCommand :
    ({ service 0 with pending := [.readStatus [], .leave []] } : State).pending = Instr.readStatus [] :: [Instr.leave []] :=
  rfl

theorem witness_IdleStepLetsTimePass :
    held.pending = [] ∧ held.heldInReset = true ∧ held.wire = [] ∧ refusal3.pending = [] ∧ refusal3.heldInReset = false ∧
      refusal3.wire = [] ∧ ({ refusal3 with wire := [false, true] } : State).wire = false :: [true] := by decide +kernel

theorem witness_NoCommandIsTakenInReset_held :
    (Instr.join []).wf = true ∧ (Instr.join []).command?.isSome = true ∧ held.heldInReset = true ∧
      taken.heldInReset = false ∧ taken.link.resetTaken = true := by decide +kernel

theorem witness_NoCommandIsTakenInReset_straddling :
    (Instr.transactionCut []).wf = true ∧ (∃ bytes, Instr.transactionCut [] = .transactionCut bytes) ∧
      straddles.heldInReset = false ∧ straddles.link.resetTaken = false ∧ straddles.link.awaitRise = true :=
  ⟨by decide, ⟨[], rfl⟩, by decide +kernel, by decide +kernel, by decide +kernel⟩

theorem witness_UnjudgedCommandsChangeNothing :
    State.reset.ready = true ∧ (0x12#8 ∈ commandCodes ∧ lengthFits 0x12#8 [0#8] = false) ∧
      (0x31#8 ∈ commandCodes ∧ lengthFits 0x31#8 [0#8, 0#8, 0#8, 0#8, 0#8, 2#8, 9#8] = false) ∧
      (0x00#8 ∉ commandCodes ∧ 0xFF#8 ∉ commandCodes) ∧ commandComplete [] = false ∧
      commandComplete [0x41#8, 0#8, 1#8] = false ∧ commandComplete [0x41#8, 0#8, 1#8, 8#8] = true := by decide +kernel

/-- A whole command, one cut short in its parameters, and bits of HDO in the command phase, the response and after it. -/
theorem witness_DecodedTransactionIsTheEncodedCommand :
    ([true, false, true, true, false, true, true] : List Bool).length < 8 ∧ ([] : List Bool).length < 8 ∧
      commandComplete [0x2F#8, 0#8, 1#8] = false ∧
      (held.heldInReset = true ∧ (service 0).heldInReset = false ∧ 23 / 8 < 3 ∧ 3 ≤ 24 / 8 ∧
        ([0x09#8] : List Byte)[24 / 8 - 3]? = some 0x09#8 ∧ 3 + ([0x09#8] : List Byte).length ≤ 32 / 8) ∧
      (Instr.postErase [10#8, 0#8, 0x01#8, 0x2C#8, 1#8]).wf = true ∧
      (Instr.postErase [10#8, 0#8, 0x01#8, 0x2C#8, 1#8]).encode =
        some [0x24#8, 0#8, 5#8, 10#8, 0#8, 0x01#8, 0x2C#8, 1#8] ∧
      (Instr.unknownCommand 0xFF#8 []).wf = true ∧ (Instr.unknownCommand 0xFF#8 []).encode = some [0xFF#8, 0#8, 0#8] := by
  decide +kernel

/-- The ranges of R145 at their ends, and one past each. -/
theorem witness_ConfigureSetsTheStation :
    (service 0).ready = true ∧ (service 0).ctl.station ≠ .unconfigured ∧ State.reset.ready = true ∧
      State.reset.ctl.station = .unconfigured ∧ ¬ (2#8).toNat ≤ 1 ∧ ¬ 6 ≤ (5#8).toNat ∧ ¬ (241#8).toNat ≤ 240 ∧
      ¬ 1 ≤ (0#8).toNat ∧ ¬ (17#8).toNat ≤ 16 ∧
      ((0#8).toNat ≤ 1 ∧ 6 ≤ (6#8).toNat ∧ (6#8).toNat ≤ 240 ∧ 1 ≤ (1#8).toNat ∧ (1#8).toNat ≤ 16) ∧
      ((1#8).toNat ≤ 1 ∧ 6 ≤ (240#8).toNat ∧ (240#8).toNat ≤ 240 ∧ 1 ≤ (16#8).toNat ∧ (16#8).toNat ≤ 16) := by
  decide +kernel

theorem witness_ConfigureSetsTheStation_solo :
    State.reset.port.sending = none ∧ State.reset.bank0.internal = some ⟨.mapLoad scanStart, false⟩ ∧
      State.reset.bank1.internal = some ⟨.mapLoad scanStart, false⟩ := by decide +kernel

theorem witness_JoinStartsLearning :
    ((station .configured (holding 0)).ready = true ∧ (station .configured (holding 0)).ctl.station = .configured) ∧
      (station .rxFault (holding 0)).ctl.station = .rxFault ∧ (station .txFault (holding 0)).ctl.station = .txFault ∧
      (State.reset.ready = true ∧ State.reset.ctl.station ≠ .configured ∧ State.reset.ctl.station ≠ .rxFault ∧
        State.reset.ctl.station ≠ .txFault) ∧
      ([0#8] : List Byte) ≠ [] ∧ (station .learning (holding 0)).ctl.station = .learning ∧
      (station .learning (holding 0)).ready = true := by decide +kernel

/-- Each work that forbids LEAVE: a host operation in either bank, an internal operation in either bank, another state. -/
theorem witness_LeaveGivesBackOrGoes_wrong_state :
    (station .leaving (holding 5)).ready = true ∧ (station .leaving (holding 5)).ctl.station ≠ .inService ∧
      refusal3.ready = true ∧ refusal3.bank0.queue ≠ [] ∧ refusal3.bank1.queue ≠ [] ∧
      ({ service 0 with bank0 := State.reset.bank0 } : State).bank0.internal ≠ none ∧
      ({ service 0 with bank1 := State.reset.bank1 } : State).bank1.internal ≠ none := by decide +kernel

/-- A station in service with nothing in the die: one that has nothing to give back, one that holds and one that only waits. -/
theorem witness_LeaveGivesBackOrGoes :
    (service 0).ready = true ∧ (service 0).ctl.station = .inService ∧ (service 0).bank0.queue = [] ∧
      (service 0).bank1.queue = [] ∧ (service 0).bank0.internal = none ∧ (service 0).bank1.internal = none ∧
      ((service 0).ctl.own.held = 0 ∧ (service 0).ctl.own.waiting = none) ∧ 0 < (service 1).ctl.own.held ∧
      (station .inService { holding 0 with waiting := some ⟨6, 1⟩ }).ctl.own.waiting ≠ none := by decide +kernel

/-- A state with a number of DONE slots in the completion queue. -/
def withDone (s : State) (tags : List Byte) : State := { s with completions := tags.map doneRead }

theorem witness_PostsAreReadAndCheckedInOrder :
    State.reset.ready = true ∧ postOf (.postErase [1#8]) = some none ∧
      postOf (.postFinish [1#8, 0#8, 0x07#8, 0xFE#8]) = some (some ⟨1#8, none⟩) ∧
      postOf (.postFinish [40#8, 0#8, 0x07#8, 0xFD#8]) = some (some ⟨40#8, some (.zero, 2045, .finish)⟩) ∧
      (event2.ready = true ∧ 40#8 ∈ event2.tagsInUse) ∧
      (event4.ready = true ∧ 52#8 ∉ event4.tagsInUse ∧ 8 ≤ event4.slotsInUse) ∧
      (52#8 ∉ event2.tagsInUse ∧ event2.slotsInUse < 8 ∧ 6 ≤ (event2.bank .zero).queue.length) := by decide +kernel

/-- Seven slots in use and five operations in the bank's queue. -/
def almostFull : State :=
  withBank0 (solo 8) { event2.bank0 with queue := event2.bank0.queue.take 5 }

theorem witness_PostAppendsItsOperation :
    postOf (.postErase [46#8, 0#8, 0#8, 0#8, 0#8]) = some (some ⟨46#8, some (.zero, 0, .erase false)⟩) ∧
      (withDone almostFull [1#8, 2#8]).ready = true ∧ (withDone almostFull [1#8, 2#8]).tableSound = true ∧
      46#8 ∉ (withDone almostFull [1#8, 2#8]).tagsInUse ∧ (withDone almostFull [1#8, 2#8]).slotsInUse = 7 ∧
      ((withDone almostFull [1#8, 2#8]).bank .zero).queue.length = 5 := by decide +kernel

theorem witness_PostAppendsItsOperation_running :
    (withBank0 (solo 6) (erasing 1 (.pulse .erase) [])).ready = true ∧
      (withBank0 (solo 6) (erasing 1 (.pulse .erase) [])).tableSound = true ∧
      46#8 ∉ (withBank0 (solo 6) (erasing 1 (.pulse .erase) [])).tagsInUse ∧
      (withBank0 (solo 6) (erasing 1 (.pulse .erase) [])).coherent = true ∧
      ((withBank0 (solo 6) (erasing 1 (.pulse .erase) [])).bank .zero).isRunning = true ∧
      ((solo 6).ready = true ∧ (solo 6).tableSound = true ∧ (solo 6).bank0.queue = [] ∧ (solo 6).bank0.internal = none) := by
  decide +kernel

/-- A bank whose head is this operation alone. -/
def headed (bk : Bank) (sl : Slot) : Bank := { bk with queue := [sl] }

/-- A bank with all of its staging slots loaded. -/
def staged (bk : Bank) : Bank := { bk with staging := (pages 0xE0#8).map fun p => ⟨true, p⟩ }

/-- A queued operation of bank 0 on a block. -/
def queuedOp (op : HostOp) (block : Nat) : Slot := slot 1#8 op .zero block .queued

/-- The head operation ends at its start point with an outcome. -/
def startEnds (bk : Bank) (o : OpOutcome) : Bool :=
  match bk.advanceStep with
  | none => false
  | some u => decide (u.ended.map (fun d => d.record.outcome) = [o]) && u.bank.queue.isEmpty

/-- The head operation waits from its start point on, on a path. -/
def startWaits (bk : Bank) (path : Option ReadPath) : Bool :=
  match bk.advanceStep with
  | none => false
  | some u => u.ended.isEmpty && decide (u.bank.queue.map Slot.state = [.waiting]) &&
      decide (u.bank.queue.map Slot.path = [path])

/-- RETIRED, MAP_LOST, then the checks of a PROGRAM of word line 0 and above it, in their order (R55). -/
theorem witness_PostAppendsItsOperation_ends :
    startEnds (headed { loaded with retired := [⟨12, .factory⟩], mapState := .lost } (queuedOp (.erase true) 12)) .retired =
        true ∧
      startEnds (headed { loaded with mapState := .lost } (queuedOp .finish 12)) .mapLost = true ∧
      startEnds (headed (openAt 40 6 0xC0#8) (queuedOp (.program 0) 12)) .openBlockBusy = true ∧
      startEnds (headed (openAt 40 6 0xC0#8) (queuedOp (.program 0) 40)) .orderError = true ∧
      startEnds (headed (openAt 40 6 0xC0#8) (queuedOp (.program 6) 12)) .notOpen = true ∧
      startEnds (headed (openAt 40 6 0xC0#8) (queuedOp (.program 7) 40)) .orderError = true ∧
      startEnds (headed (openAt 40 6 0xC0#8) (queuedOp (.program 6) 40)) .stagingIncomplete = true ∧
      startEnds (headed (openAt 40 6 0xC0#8) (queuedOp .finish 12)) .notOpen = true := by decide +kernel

/-- Each kind goes on to wait; a READ of the pending word line takes the pending path, of the one below it the other. -/
theorem witness_PostAppendsItsOperation_waits :
    startWaits (headed (openAt 40 6 0xC0#8) (queuedOp (.read 5 .low) 40)) (some .pending) = true ∧
      startWaits (headed (openAt 40 6 0xC0#8) (queuedOp (.read 4 .low) 40)) (some .sensing) = true ∧
      startWaits (headed (staged loaded) (queuedOp (.program 0) 12)) none = true ∧
      startWaits (headed (staged (openAt 40 6 0xC0#8)) (queuedOp (.program 6) 40)) none = true ∧
      startWaits (headed (openAt 40 6 0xC0#8) (queuedOp .finish 40)) none = true ∧
      startWaits (headed loaded (queuedOp (.erase false) 2045)) none = true := by decide +kernel

/-- ERASE 10 SUSPENDED after one pulse, with what stands behind it. -/
def suspended (behind : List Slot) : Bank :=
  { (eraseExample 1 [] none).bank0 with
    step := none
    queue := { slot 10#8 (.erase true) .zero 300 .suspended with
      pulses := 1, arrayTouched := true, suspensions := 1 } :: behind }

/-- A READ that a suspension has taken, on a path and in a state. -/
def takenRead (tag : Byte) (w : Nat) (st : SlotState) (path : ReadPath) : Slot :=
  { queuedRead tag 40 w with state := st, path := some path }

/-- A PROGRAM held after a pulse, and a SUSPENDED ERASE with no READ taken and with the second READ behind it taken. -/
theorem witness_AbortActsByTheSlotsState_dropping :
    (let s := withBank0 (solo 0) { programming 5 ⟨.fine, 4⟩ 3 (.pulse .fine) with
        step := none, queue := [{ slot 61#8 (.program 5) .zero 12 .held with pulses := 3, arrayTouched := true }] };
      s.ready = true ∧ s.tableSound = true ∧ stands s .zero 61#8 .held = true) ∧
      (let s := withBank0 (solo 6) (suspended [queuedRead 12#8 300 0]);
        s.ready = true ∧ s.tableSound = true ∧ stands s .zero 10#8 .suspended = true) ∧
      (let s := withBank0 (solo 6) (suspended [queuedRead 12#8 300 0, takenRead 11#8 2 .waiting .sensing]);
        s.tableSound = true ∧ stands s .zero 10#8 .suspended = true ∧
          (s.bank .zero).queue.filter (fun x => x.tag != 10#8) =
            [queuedRead 12#8 300 0] ++ takenRead 11#8 2 .waiting .sensing :: []) := by decide +kernel

theorem witness_AbortActsByTheSlotsState :
    event2.ready = true ∧ event2.tableSound = true ∧ stands event2 .zero 40#8 .running = true ∧
      stands event2 .zero 43#8 .queued = true ∧ 99#8 ∉ event2.tagsInUse ∧
      (withBank0 (solo 3) (recording (.mapUpdate 1) true (some (.pulse .mapPage)))).tableSound = true ∧
      stands (withBank0 (solo 3) (recording (.mapUpdate 1) true (some (.pulse .mapPage)))) .zero 7#8 .recording = true ∧
      ((withDone (solo 0) [3#8]).tableSound = true ∧ (∃ d ∈ (withDone (solo 0) [3#8]).completions, d.slot.tag = 3#8)) := by
  decide +kernel

theorem witness_AbortActsByTheSlotsState_at_rest :
    refusal3.tableSound = true ∧ refusal3.ready = true ∧ stands refusal3 .one 2#8 .waiting = true ∧
      (twoReads.tableSound = true ∧ twoReads.ready = true ∧ stands twoReads .zero 20#8 .outputWait = true) ∧
      stands (withBank0 (service 0) { erasing 1 (.pulse .erase) [] with
        step := none, queue := [{ slot 10#8 (.erase true) .zero 300 .held with pulses := 1, arrayTouched := true }] })
        .zero 10#8 .held = true := by decide +kernel

/-- The counts 0 and 9 on either side of the range, 1 and 8 at its ends, with fewer and more records than asked for. -/
theorem witness_TakeCompletionsReturnsTheOldestRecords :
    (withDone (solo 0) [1#8, 2#8, 3#8]).ready = true ∧ (withDone (solo 0) [1#8, 2#8, 3#8]).tableSound = true ∧
      ([] : List Byte).length ≠ 1 ∧ (0#8).toNat = 0 ∧ 8 < (9#8).toNat ∧ (1 ≤ (1#8).toNat ∧ (1#8).toNat ≤ 8) ∧
      (1 ≤ (8#8).toNat ∧ (8#8).toNat ≤ 8) ∧
      (∃ d ∈ (withDone (solo 0) [1#8, 2#8, 3#8]).completions.take 1, d.slot.tag = 1#8) ∧
      after (.takeCompletions [1#8]) (withDone (solo 0) [1#8, 2#8, 3#8]) (fun t => t.completions.length) = some 2 := by
  decide +kernel

/-! #### Page data -/

theorem witness_LoadStagingWritesItsBytes :
    (solo 0).ready = true ∧ ([0#8, 0#8, 0#8, 0#8, 0#8] : List Byte).length < 6 ∧
      ([0xAA#8] : List Byte).length ≠ (0#8).toNat * 256 + (2#8).toNat ∧ 1 < (2#8).toNat ∧ 2 < (3#8).toNat ∧
      ([0xAA#8] : List Byte).length = (0#8).toNat * 256 + (1#8).toNat ∧
      (bankOf 1#8 = some .one ∧ positionOf 2#8 = some .high) ∧
      (1 ≤ ([0xAA#8] : List Byte).length ∧ ([0xAA#8] : List Byte).length ≤ 512 ∧
        (0x11#8).toNat * 256 + (0x3F#8).toNat + ([0xAA#8] : List Byte).length ≤ 4416) ∧
      ¬ (0x11#8).toNat * 256 + (0x40#8).toNat + ([0xAA#8] : List Byte).length ≤ 4416 ∧
      Store.wf blankByte (((solo 0).bank .one).staging.get .high).page = true := by decide +kernel

theorem witness_FetchOutputReturnsTheBuffersBytes :
    twoReads.ready = true ∧ ([0#8] : List Byte).length ≠ 5 ∧ 1 < (2#8).toNat ∧
      (bankOf 0#8 = some .zero ∧ bankOf 1#8 = some .one) ∧
      ¬ 1 ≤ (0#8).toNat * 256 + (0#8).toNat ∧ ¬ (2#8).toNat * 256 + (1#8).toNat ≤ 512 ∧
      (1 ≤ (2#8).toNat * 256 + (0#8).toNat ∧ (2#8).toNat * 256 + (0#8).toNat ≤ 512 ∧
        (0x0F#8).toNat * 256 + (0x40#8).toNat + ((2#8).toNat * 256 + (0#8).toNat) ≤ 4416) ∧
      (twoReads.bank .one).output.holder = none ∧ (twoReads.bank .zero).output.holder = some 9#8 := by decide +kernel

/-- A pending-path READ that waits for the buffer behind a held one. -/
def pendingWaits : State :=
  withBank0 (solo 0) { twoReads.bank0 with
    senseLatch := none
    queue := [{ slot 21#8 (.read 3 .low) .zero 7 .waiting with path := some .pending }] }

theorem witness_ReleaseOutputFreesOrRefillsTheBuffer :
    twoReads.ready = true ∧ ([] : List Byte).length ≠ 1 ∧ 1 < (2#8).toNat ∧ bankOf 1#8 = some .one ∧
      (twoReads.bank .one).output.holder = none ∧ (twoReads.bank .zero).output.holder ≠ none ∧
      ((twoReads.bank .zero).internal = none ∧ stands twoReads .zero 20#8 .outputWait = true ∧
        (twoReads.bank .zero).senseLatch = some ⟨[(5, 1#8)], allMarks, true, .ok, .read 20#8⟩) ∧
      (withBank0 (solo 0) { loaded with output := ⟨some 9#8, []⟩ }).bank0.queue = [] := by decide +kernel

theorem witness_ReleaseOutputFreesOrRefillsTheBuffer_pending :
    pendingWaits.ready = true ∧ (pendingWaits.bank .zero).output.holder ≠ none ∧ (pendingWaits.bank .zero).internal = none ∧
      (pendingWaits.bank .zero).queue =
        [{ slot 21#8 (.read 3 .low) .zero 7 .waiting with path := some .pending }] ∧
      (pendingWaits.bank .zero).pendingSlot = some ⟨7, 3, pages 0xC0#8⟩ := by decide +kernel

/-- Bank 0 with a held output buffer, of a SOLO die. -/
def holderOf (bk : Bank) : State := withBank0 (solo 12) { bk with output := ⟨some 9#8, [(7, 1#8)]⟩ }

/-- Nothing waits for the buffer: an internal operation ahead, and a head in each state that asks for none. -/
theorem witness_ReleaseOutputFreesOrRefillsTheBuffer_stays :
    ((holderOf State.reset.bank0).ready = true ∧ ((holderOf State.reset.bank0).bank .zero).internal ≠ none) ∧
      stands (holderOf (erasing 1 (.pulse .erase) [])) .zero 10#8 .running = true ∧
      stands (holderOf (headed loaded (slot 1#8 .finish .zero 12 .held))) .zero 1#8 .held = true ∧
      stands (holderOf (recording (.mapUpdate 1) true (some (.pulse .mapPage)))) .zero 7#8 .recording = true ∧
      (stands (holderOf (headed loaded (takenRead 11#8 2 .waiting .sensing))) .zero 11#8 .waiting = true ∧
        (takenRead 11#8 2 .waiting .sensing).path ≠ some .pending) := by decide +kernel

/-- A coherent state whose buffer is held while an ERASE verify runs with a READ queued behind it. -/
theorem witness_ReleaseOutputFreesOrRefillsTheBuffer_coherent :
    let s := holderOf (erasing 2 (.verify .erase) [queuedRead 12#8 300 0])
    s.ready = true ∧ s.coherent = true ∧ (s.bank .zero).output.holder ≠ none ∧
      ∀ sl ∈ (s.bank .zero).queue, sl.state ≠ .outputWait ∧ ¬ (sl.state = .waiting ∧ sl.path = some .pending) := by
  decide +kernel

/-! #### Views and die reset -/

theorem witness_ReadStatusReturnsTheViewAndClearsTheNews :
    (service 0).ready = true ∧
      ((withDone (solo 0) [1#8, 2#8, 3#8, 4#8, 5#8, 6#8, 7#8, 8#8]).ready = true ∧
        (withDone (solo 0) [1#8, 2#8, 3#8, 4#8, 5#8, 6#8, 7#8, 8#8]).completions.length ≤ 8 ∧
        (withDone (solo 0) [1#8, 2#8, 3#8, 4#8, 5#8, 6#8, 7#8, 8#8]).link.anyNews = false) ∧
      (service 0).completions = [] := by decide +kernel

theorem witness_ReadViewsChangeNothing :
    (service 6).ready = true ∧ 1 < (2#8).toNat ∧ bankOf 0#8 = some .zero ∧ bankOf 1#8 = some .one ∧
      ({ loaded with retired := [⟨9, .factory⟩, ⟨500, .programFail⟩] } : Bank).retired[1]? = some ⟨500, .programFail⟩ := by
  decide +kernel

/-- A first erase pulse under way in bank 0, and a coarse pulse in bank 1. -/
def pulsing : State :=
  { withBank0 (service 11) (erasing 1 (.pulse .erase) []) with
    bank1 := { programming 0 ⟨.coarse, 0⟩ 2 (.pulse .coarse) with
      queue := [{ slot 61#8 (.program 0) .one 12 .running with pulses := 2, arrayTouched := true }] } }

theorem witness_DieResetIsAnsweredThenCutsTheSteps :
    (service 5).ready = true ∧ (ResetSource.command = .command ∧ (service 5).link.resetTaken = false) ∧
      taken.link.resetTaken = true ∧ (ResetSource.pin ≠ .command) ∧
      (pulsing.bank .zero).erasePulseCut = some 300 ∧ (pulsing.bank .one).erasePulseCut = none ∧
      (pulsing.bank .zero).array.canonical = true := by decide +kernel

theorem witness_ResetEndLeavesTheDieResetState :
    held.inReset.holds .powerOn = false ∧
      (held.inReset.holds .pin = true ∧ held.inReset.finish .pin = ⟨false, false, false⟩) ∧
      (({ held with inReset := ⟨true, true, false⟩ } : State).inReset.holds .pin = true ∧
        ({ held with inReset := ⟨true, true, false⟩ } : State).inReset.finish .pin ≠ ⟨false, false, false⟩) := by
  decide +kernel

/-! #### The array and its steps -/

theorem witness_ArrayReadsBackWhatIsWritten :
    factoryArray.canonical = true ∧ trioWf (pages 0xE0#8) = true ∧ 0 < 64 ∧ 63 < 64 ∧ ((2045 : Nat) ≠ 0 ∨ (0 : Nat) ≠ 63) := by
  decide +kernel

/-- Each condition of a word line in a block that has its erase-complete mark, and a block without it. -/
theorem witness_SenseOutcomeFollowsTheMarks :
    (factoryArray.setEraseComplete 9 false).eraseComplete 9 = false ∧ factoryArray.eraseComplete 9 = true ∧
      factoryArray.condition 9 0 = .erased ∧ (factoryArray.setMarks 9 0 (marksOfCount 1)).condition 9 0 = .coarsePartial ∧
      (factoryArray.setMarks 9 0 (marksOfCount 2)).condition 9 0 = .coarse ∧
      (factoryArray.setMarks 9 0 (marksOfCount 3)).condition 9 0 = .finePartial ∧
      (factoryArray.setMarks 2045 0 allMarks).condition 2045 0 = .fine := by decide +kernel

theorem witness_PulseEndBeginsTheVerify :
    held.heldInReset = true ∧ (∀ use, ((service 0).bank .zero).step ≠ some (.pulse use)) ∧
      (pulsing.heldInReset = false ∧ (pulsing.bank .zero).step = some (.pulse .erase) ∧
        (pulsing.bank .one).step = some (.pulse .coarse) ∧ (pulsing.bank .zero).array.canonical = true) :=
  ⟨by decide +kernel, fun use => by cases use <;> decide +kernel, by decide +kernel⟩

/-- A first map erase pulse of map block B under way. -/
theorem witness_PulseEndBeginsTheVerify_map_erase :
    (recording (.rewriteErase 1) true (some (.pulse .mapErase))).step = some (.pulse .mapErase) ∧
      (recording (.rewriteErase 1) true (some (.pulse .mapErase))).internal = some ⟨.rewriteErase 1, true⟩ ∧
      mapBlockNumber (recording (.rewriteErase 1) true (some (.pulse .mapErase))).otherMapBlock = 2047 ∧
      (recording (.rewriteErase 1) true (some (.pulse .mapErase))).array.canonical = true := by decide +kernel

/-- A READ whose sense is under way, with the output buffer free or held. -/
def reading (stop : Bool) (holder : Option Byte) : State :=
  withBank0 (solo 2) { loaded with
    queue := [{ slot 20#8 (.read 2 .middle) .zero 7 .running with path := some .sensing, stopRequest := stop }]
    output := ⟨holder, []⟩, step := some (.sense .read) }

theorem witness_ReadSenseEndCompletesOrWaits :
    (reading false none).heldInReset = false ∧ ((reading false none).bank .zero).step = some (.sense .read) ∧
      ((reading false none).bank .zero).runningRead =
        some { slot 20#8 (.read 2 .middle) .zero 7 .running with path := some .sensing } ∧
      ((reading false none).bank .zero).output.holder = none ∧
      ((reading true (some 9#8)).bank .zero).output.holder ≠ none ∧
      ((reading true (some 9#8)).bank .zero).runningRead.map Slot.stopRequest = some true ∧
      ((reading false (some 9#8)).bank .zero).runningRead.map Slot.stopRequest = some false := by decide +kernel

/-- A RUNNING operation with its stop request and its ARRAY_TOUCHED as given. -/
def atBoundary (op : HostOp) (stop touched : Bool) : Slot :=
  { slot 10#8 op .zero 300 .running with stopRequest := stop, arrayTouched := touched }

/-- The four clauses: a stop after a pulse of a PROGRAM or FINISH, any other stop, a pause, and the next pulse. -/
theorem witness_BoundaryHonoursStopThenPause :
    ((atBoundary (.program 1) true true).stopRequest = true ∧ (∃ w, w < 64 ∧ (atBoundary (.program 1) true true).op = .program w) ∧
        (atBoundary (.program 1) true true).arrayTouched = true) ∧
      ((atBoundary .finish true true).stopRequest = true ∧ (atBoundary .finish true true).op = .finish ∧
        (atBoundary .finish true true).arrayTouched = true) ∧
      ((atBoundary (.erase true) true true).stopRequest = true ∧ (atBoundary (.erase true) true true).op = .erase true) ∧
      ((atBoundary (.program 0) true false).stopRequest = true ∧ (atBoundary (.program 0) true false).arrayTouched = false) ∧
      ((atBoundary (.erase true) false true).stopRequest = false ∧
        ({ erasing 2 (.verify .erase) [] with pauseOrder := true } : Bank).pauseOrder = true) ∧
      ((atBoundary (.erase true) false true).stopRequest = false ∧ (erasing 2 (.verify .erase) []).pauseOrder = false) := by
  decide +kernel

theorem witness_NextPulseBeginsItsPass :
    ((slot 60#8 (.program 0) .zero 12 .running).op = .program 0 ∧ loaded.pass = none) ∧
      ((slot 61#8 (.program 1) .zero 12 .running).op = .program 1 ∧
        (programming 1 ⟨.fine, 0⟩ 0 (.verify .coarse)).pass = some ⟨.fine, 0⟩ ∧
        (programming 1 ⟨.fine, 0⟩ 0 (.verify .coarse)).passPulses = 0 ∧
        0 < (programming 1 ⟨.fine, 0⟩ 6 (.verify .fine)).passPulses) ∧
      ((slot 63#8 .finish .zero 12 .running).op = .finish ∧ (finishing 7 (.verify .fine)).pass = some ⟨.fine, 4⟩) ∧
      ((slot 10#8 (.erase true) .zero 300 .waiting).op = .erase true ∧
        (slot 10#8 (.erase true) .zero 300 .waiting).pulses = 0 ∧
        0 < ({ slot 10#8 (.erase true) .zero 300 .running with pulses := 1 } : Slot).pulses) ∧
      (∃ r ∈ ({ loaded with openBlock := some ⟨300, 6⟩ } : Bank).openBlock, r.block = 300) ∧ loaded.openBlock = none := by
  decide +kernel

/-- A PROGRAM of word line 0 whose blank check sense ends. -/
def checking (clean : Bool) : State :=
  withBank0 (solo 5) { loaded with
    array := factoryArray.setEraseComplete 12 clean
    staging := (pages 0xE0#8).map fun p => ⟨true, p⟩
    queue := [slot 60#8 (.program 0) .zero 12 .running], step := some (.sense .blankCheck) }

theorem witness_BlankCheckEndJudgesTheBlock :
    (checking true).heldInReset = false ∧ ((checking true).bank .zero).step = some (.sense .blankCheck) ∧
      ((checking true).bank .zero).queue = slot 60#8 (.program 0) .zero 12 .running :: [] ∧
      (((checking true).bank .zero).array.eraseComplete 12 = true ∧
        ((checking true).bank .zero).array.marksOf 12 0 = ⟨false, false, false, false⟩) ∧
      ((checking false).bank .zero).step = some (.sense .blankCheck) ∧
      ((checking false).bank .zero).queue = slot 60#8 (.program 0) .zero 12 .running :: [] ∧
      ((checking false).bank .zero).array.eraseComplete 12 = false := by decide +kernel

/-- A bank has a verify under way, for the operation at its head, in a pass after so many pulses of it. -/
def verifies (bk : Bank) (use : PulseUse) (p : Option Pass) (n : Nat) (op : HostOp) : Bool :=
  decide (bk.step = some (.verify use)) && decide (bk.pass = p) && decide (bk.passPulses = n) &&
    decide (bk.queue.head?.map Slot.op = some op)

/-- Word lines 0 and 1, and the tenth and ninth pulses. -/
theorem witness_CoarseVerifyEndSettlesThePass :
    (solo 5).heldInReset = false ∧
      (verifies (programming 0 ⟨.coarse, 0⟩ 9 (.verify .coarse)) .coarse (some ⟨.coarse, 0⟩) 9 (.program 0) = true ∧
        (programming 0 ⟨.coarse, 0⟩ 9 (.verify .coarse)).latch.isSome = true) ∧
      (verifies (programming 1 ⟨.coarse, 1⟩ 10 (.verify .coarse)) .coarse (some ⟨.coarse, 1⟩) 10 (.program 1) = true ∧
        (programming 1 ⟨.coarse, 1⟩ 10 (.verify .coarse)).latch.isSome = true) := by decide +kernel

/-- Word lines 1 and 62, word line 63 in both of its fine passes, a FINISH, and the fourteenth and thirteenth pulses. -/
theorem witness_FineVerifyEndSettlesThePass :
    (solo 5).heldInReset = false ∧
      (verifies (programming 62 ⟨.fine, 61⟩ 14 (.verify .fine)) .fine (some ⟨.fine, 61⟩) 14 (.program 62) = true ∧
        (programming 62 ⟨.fine, 61⟩ 14 (.verify .fine)).pendingSlot.isSome = true ∧
        (programming 62 ⟨.fine, 61⟩ 14 (.verify .fine)).latch.isSome = true) ∧
      (verifies (programming 63 ⟨.fine, 62⟩ 13 (.verify .fine)) .fine (some ⟨.fine, 62⟩) 13 (.program 63) = true ∧
        (programming 63 ⟨.fine, 62⟩ 13 (.verify .fine)).pendingSlot.isSome = true) ∧
      (verifies (programming 63 ⟨.fine, 63⟩ 1 (.verify .fine)) .fine (some ⟨.fine, 63⟩) 1 (.program 63) = true ∧
        (programming 63 ⟨.fine, 63⟩ 1 (.verify .fine)).pendingSlot.isSome = true ∧
        (programming 63 ⟨.fine, 63⟩ 1 (.verify .fine)).latch.isSome = true) ∧
      (verifies (finishing 14 (.verify .fine)) .fine (some ⟨.fine, 4⟩) 14 .finish = true ∧
        (finishing 14 (.verify .fine)).pendingSlot.isSome = true) := by decide +kernel

/-- The eighth and seventh pulses, and a suspension whose candidate stands first behind the ERASE. -/
theorem witness_EraseVerifyEndFollowsItsOrder :
    (solo 6).heldInReset = false ∧
      (verifies (erasing 8 (.verify .erase) []) .erase (none) 0 (.erase true) = true ∧
        (erasing 8 (.verify .erase) []).queue.map Slot.pulses = [8]) ∧
      ((erasing 7 (.verify .erase) []).step = some (.verify .erase) ∧
        (erasing 7 (.verify .erase) []).queue.map Slot.pulses = [7]) ∧
      ((eraseExample 1 behind10 none).bank0.step = some (.verify .erase) ∧
        (eraseExample 1 behind10 none).bank0.queue.tail = [] ++ queuedRead 11#8 40 2 :: behind10.tail ∧
        (eraseExample 1 behind10 none).bank0.queue.head?.map (fun sl => (sl.op, sl.stopRequest, sl.suspensions, sl.pulses)) =
          some (.erase true, false, 0, 1) ∧
        (eraseExample 1 behind10 none).bank0.output.holder = none ∧
        (queuedRead 11#8 40 2).isRead = true ∧ (queuedRead 11#8 40 2).state = .queued ∧
        (queuedRead 11#8 40 2).block ≠ 300) := by decide +kernel

/-- A candidate behind a READ that may not be taken, none where the buffer is held or a PROGRAM stands before it, and a READ taken
on each path. -/
theorem witness_EraseVerifyEndFollowsItsOrder_suspended :
    ((suspended [queuedRead 12#8 300 0, queuedRead 11#8 40 2]).internal = none ∧
        (suspended []).queue.head?.map Slot.state = some .suspended ∧ (suspended []).output.holder = none ∧
        (queuedRead 12#8 300 0).block = 300 ∧ (queuedRead 11#8 40 2).block ≠ 300 ∧
        (suspended [queuedRead 12#8 300 0, queuedRead 11#8 40 2]).advanceStep.isSome = true) ∧
      ({ suspended [queuedRead 11#8 40 2] with output := ⟨some 9#8, []⟩ } : Bank).advanceStep = none ∧
      (suspended [slot 14#8 (.program 6) .zero 40 .queued, queuedRead 11#8 40 2]).advanceStep = none ∧
      ((takenRead 11#8 5 .waiting .pending).state = .waiting ∧ (suspended []).pendingSlot = some ⟨40, 5, pages 0xC0#8⟩ ∧
        (suspended [takenRead 11#8 5 .waiting .pending]).advanceStep.isSome = true) ∧
      ((takenRead 11#8 2 .running .sensing).path = some .sensing ∧ (takenRead 11#8 2 .waiting .sensing).state = .waiting) := by
  decide +kernel

/-- A retired list of 64 entries that ends with the last host block. -/
def fullList : List RetiredEntry := (List.range 64).map fun n => ⟨1982 + n, .factory⟩

/-- A full list, a DEGRADED map, and a LOADED one with a page left and with none; a PROGRAM and an ERASE. -/
theorem witness_FailureIsRecordedAndHandedOff :
    ((programming 5 ⟨.fine, 4⟩ 14 (.verify .fine)).queue.length = 1 ∧
        (programming 5 ⟨.fine, 4⟩ 14 (.verify .fine)).queue.map Slot.isRead = [false] ∧
        (erasing 8 (.verify .erase) []).queue.map Slot.isRead = [false]) ∧
      ((erasing 8 (.verify .erase) [queuedRead 12#8 300 0]).queue.tail = [queuedRead 12#8 300 0] ∧
        (queuedRead 12#8 300 0).tag ≠ 10#8) ∧
      64 ≤ ({ loaded with retired := fullList } : Bank).retired.length ∧
      (({ loaded with retired := fullList.take 63, mapState := .degraded } : Bank).retired.length < 64 ∧
        ({ loaded with retired := fullList.take 63, mapState := .degraded } : Bank).mapState = .degraded) ∧
      (loaded.retired.length < 64 ∧ loaded.mapState ≠ .degraded ∧ loaded.nextMapPage < 64) ∧
      ¬ ({ loaded with nextMapPage := 64 } : Bank).nextMapPage < 64 := by decide +kernel

/-! #### The map unit -/

/-- A MAP_LOAD at a page of its scan. -/
def scanning (scan : Scan) : State :=
  withBank0 (solo 2) { Bank.afterReset factoryArray with
    internal := some ⟨.mapLoad scan, true⟩, step := some (.sense .mapScan) }

/-- What a scan sense that returns the bytes as placed finds. -/
def scanFinds (scan : Scan) : OpOutcome × Bool :=
  let r := (scanning scan).bank0.array.sense (mapBlockNumber scan.block) scan.wordLine .low none .mapScan
  (r.outcome, (readMapPage r.page).isSome)

/-- The factory page goes on, an erased page of block A leads to block B, and block B's end settles with or without a page. -/
theorem witness_MapScanSenseEndGoesOnOrSettles :
    ((scanning scanStart).heldInReset = false ∧ ((scanning scanStart).bank .zero).step = some (.sense .mapScan) ∧
        ((scanning scanStart).bank .zero).internal = some ⟨.mapLoad scanStart, true⟩) ∧
      (scanFinds scanStart = (.ok, true) ∧ ¬ 63 ≤ scanStart.wordLine ∧
        (scanning scanStart).bank0.array.eraseComplete 2046 = true) ∧
      (scanFinds ⟨.a, 1, some ⟨1#32, [], .a, 0⟩, none, none⟩).1 = .erasedPage ∧
      (scanFinds ⟨.b, 0, some ⟨1#32, [], .a, 0⟩, some 1, none⟩).1 = .erasedPage ∧
      (scanFinds ⟨.b, 0, none, some 0, none⟩).1 = .erasedPage := by decide +kernel

/-- Two pages of unequal numbers, of equal ones in two blocks, and of equal ones in one block. -/
theorem witness_MapScanSenseEndGoesOnOrSettles_better :
    ((⟨1#32, [], .a, 0⟩ : ScanBest).seq.toNat < (⟨0x80000000#32, [], .b, 0⟩ : ScanBest).seq.toNat) ∧
      ((⟨7#32, [], .a, 63⟩ : ScanBest).seq = (⟨7#32, [], .b, 0⟩ : ScanBest).seq ∧
        (⟨7#32, [], .a, 63⟩ : ScanBest).block = .a ∧ (⟨7#32, [], .b, 0⟩ : ScanBest).block = .b) ∧
      (⟨7#32, [], .a, 1⟩ : ScanBest).block = (⟨7#32, [], .a, 2⟩ : ScanBest).block := by decide +kernel

theorem witness_MapPageReadsBackItsList :
    fullList.length ≤ 64 ∧ distinctBlocks fullList = true ∧ (∀ e ∈ fullList, e.block < 2046) ∧
      ([] : List RetiredEntry).length ≤ 64 ∧ distinctBlocks [] = true := by decide +kernel

/-- The fifth and sixth pulses of a page, a first, second and third failed write, and the last map page. -/
theorem witness_MapPageVerifyEndSettlesTheWrite_update :
    (solo 3).heldInReset = false ∧
      (recording (.mapUpdate 5) true (some (.verify .mapPage))).step = some (.verify .mapPage) ∧
      ((recording (.mapUpdate 5) true (some (.verify .mapPage))).queue.map Slot.state = [.recording] ∧
        (recording (.mapUpdate 5) true (some (.verify .mapPage))).queue.map (fun sl => sl.failure.isSome) = [true] ∧
        (recording (.mapUpdate 5) true (some (.verify .mapPage))).mapBlock = some .a) ∧
      (recording (.mapUpdate 5) true (some (.verify .mapPage))).internal = some ⟨.mapUpdate 5, true⟩ ∧
      (recording (.mapUpdate 6) true (some (.verify .mapPage))).internal = some ⟨.mapUpdate 6, true⟩ ∧
      ((recording (.mapUpdate 6) true (some (.verify .mapPage))).mapFailureRun < 2 ∧
        (recording (.mapUpdate 6) true (some (.verify .mapPage))).nextMapPage + 1 < 64) ∧
      (({ recording (.mapUpdate 6) true (some (.verify .mapPage)) with nextMapPage := 63, mapFailureRun := 1 } :
          Bank).mapFailureRun < 2 ∧
        64 ≤ ({ recording (.mapUpdate 6) true (some (.verify .mapPage)) with nextMapPage := 63, mapFailureRun := 1 } :
          Bank).nextMapPage + 1) ∧
      2 ≤ ({ recording (.mapUpdate 6) true (some (.verify .mapPage)) with mapFailureRun := 2 } : Bank).mapFailureRun := by
  decide +kernel

theorem witness_MapPageVerifyEndSettlesTheWrite_rewrite :
    (recording (.rewritePage 0 5) true (some (.verify .mapPage))).step = some (.verify .mapPage) ∧
      ((recording (.rewritePage 0 5) true (some (.verify .mapPage))).queue.map Slot.state = [.recording] ∧
        (recording (.rewritePage 0 5) true (some (.verify .mapPage))).queue.map (fun sl => sl.failure.isSome) = [true] ∧
        (recording (.rewritePage 0 5) true (some (.verify .mapPage))).mapBlock = some .a) ∧
      (recording (.rewritePage 0 5) true (some (.verify .mapPage))).internal = some ⟨.rewritePage 0 5, true⟩ ∧
      (recording (.rewritePage 1 6) true (some (.verify .mapPage))).internal = some ⟨.rewritePage 1 6, true⟩ ∧
      ({ recording (.rewritePage 1 6) true (some (.verify .mapPage)) with mapFailureRun := 1 } : Bank).mapFailureRun < 2 ∧
      2 ≤ ({ recording (.rewritePage 2 6) true (some (.verify .mapPage)) with mapFailureRun := 2 } : Bank).mapFailureRun := by
  decide +kernel

/-- The seventh and eighth erase pulses. -/
theorem witness_MapEraseVerifyEndLeadsToThePages :
    (solo 6).heldInReset = false ∧
      (recording (.rewriteErase 7) true (some (.verify .mapErase))).step = some (.verify .mapErase) ∧
      ((recording (.rewriteErase 7) true (some (.verify .mapErase))).queue.map Slot.state = [.recording] ∧
        (recording (.rewriteErase 7) true (some (.verify .mapErase))).queue.map (fun sl => sl.failure.isSome) = [true] ∧
        (recording (.rewriteErase 7) true (some (.verify .mapErase))).mapBlock = some .a) ∧
      (recording (.rewriteErase 7) true (some (.verify .mapErase))).internal = some ⟨.rewriteErase 7, true⟩ ∧
      (recording (.rewriteErase 8) true (some (.verify .mapErase))).internal = some ⟨.rewriteErase 8, true⟩ := by
  decide +kernel

/-! #### Settling, claims and timers -/

/-- A bank that runs, a bank that does not, and a turn with map news and one with none. -/
theorem witness_SettlingKeepsTheRest :
    refusal3.ctl.station ≠ .solo ∧ (refusal3.bank .zero).isRunning = true ∧ (refusal3.settle.bank .one).isRunning = false ∧
      (({ loaded with mapState := .lost } : Bank).mapState = .lost ∧
        ({ loaded with mapState := .lost } : Bank).mapState ≠ (refusal3.bank .one).mapState) ∧
      ¬ (loaded.mapState = .lost ∨ loaded.mapState = .degraded) ∧
      (StationState.leaving ≠ .inService ∧ StationState.leaving ≠ .solo) := by decide +kernel

/-- A bank with nothing to do at once, and one whose head starts. -/
theorem witness_SettlingKeepsTheRest_advance :
    (refusal3.bank .zero).advanceStep = none ∧
      (headed (staged loaded) (queuedOp (.program 0) 12)).advanceStep.isSome = true := by decide +kernel

/-- Waiting banks that the gate admits and does not, and each kind of front that begins. -/
theorem witness_GateAdmitsUnderTheHolding_proceed :
    ((bothWait.bank .zero).isWaiting = true ∧ bothWait.gateAdmits .zero = true ∧
        ((service 0).bank .zero).isWaiting = false) ∧
      State.reset.bank0.internal = some ⟨.mapLoad scanStart, false⟩ ∧
      (recording (.mapUpdate 0) false none).internal = some ⟨.mapUpdate 0, false⟩ ∧
      (recording (.rewriteErase 0) false none).internal = some ⟨.rewriteErase 0, false⟩ ∧
      ((headed loaded (slot 1#8 (.read 63 .high) .zero 2045 .waiting)).internal = none ∧
        (slot 1#8 (.read 63 .high) .zero 2045 .waiting).op = .read 63 .high) ∧
      (slot 1#8 (.program 0) .zero 12 .waiting).op = .program 0 ∧
      ((slot 1#8 (.program 63) .zero 12 .waiting).op = .program 63 ∧ (openAt 12 63 0xD0#8).pass = none) ∧
      ((slot 1#8 .finish .zero 12 .waiting).op = .finish ∧ (openAt 12 1 0xD0#8).openBlock = some ⟨12, 1⟩) ∧
      (slot 1#8 (.erase true) .zero 12 .waiting).state = .waiting ∧ (slot 1#8 .finish .zero 12 .held).state = .held := by
  decide +kernel

/-- A front of each line of the reservation tables: nothing, an internal operation, and a head in each state. -/
theorem witness_GateAdmitsUnderTheHolding_reserves :
    loaded.internal = none ∧ loaded.queue = [] ∧
      State.reset.bank0.internal = some ⟨.mapLoad scanStart, false⟩ ∧
      (recording (.rewritePage 2 1) true (some (.pulse .mapPage))).internal = some ⟨.rewritePage 2 1, true⟩ ∧
      ([SlotState.waiting, .running, .held, .queued, .outputWait, .recording].all fun st =>
        let bk := headed loaded (slot 1#8 (.erase false) .zero 12 st)
        bk.internal.isNone && decide (bk.queue = [slot 1#8 (.erase false) .zero 12 st])) = true := by decide +kernel

/-- A suspended ERASE with no READ taken, and with the second READ behind it taken on either path. -/
theorem witness_GateAdmitsUnderTheHolding_suspended :
    (suspended []).internal = none ∧
      (suspended [queuedRead 12#8 300 0]).reservation = 6 ∧
      (suspended [queuedRead 12#8 300 0, takenRead 11#8 2 .running .sensing]).queue.tail =
        [queuedRead 12#8 300 0] ++ takenRead 11#8 2 .running .sensing :: [] ∧
      (suspended [queuedRead 12#8 300 0, takenRead 11#8 2 .running .sensing]).reservation = 2 ∧
      (suspended [takenRead 11#8 2 .waiting .pending]).reservation = 0 := by decide +kernel

/-- The gate open with what runs at exactly H, closed one below it, and closed by a RELEASE in its attempt. -/
theorem witness_GateAdmitsUnderTheHolding :
    (withBank0 (service 6) (erasing 1 (.pulse .erase) [])).gateAdmits .zero = true ∧
      (withBank0 (service 5) (erasing 1 (.pulse .erase) [])).gateAdmits .zero = false ∧
      ({ withBank0 (service 6) (erasing 1 (.pulse .erase) []) with
          port := { Port.afterReset with sending := some ⟨.release 5#8, frameLine 0#4 164#8 (.release 5#8)⟩ } } :
        State).gateAdmits .zero = false := by decide +kernel

/-- A claim for a waiting bank, a wait with nothing left to claim, an excess with and without a waiter elsewhere, and SOLO. -/
theorem witness_ClaimsAndReleasesFollowTheNeed :
    (refusal3.ctl.station = .inService ∧ refusal3.settle.ctl.transmit.claim = true ∧
        refusal3.bank0.runningReservation + refusal3.bank1.runningReservation ≤ refusal3.ctl.budget) ∧
      ((station .inService { holding 0 with waiting := some ⟨6, 1⟩ }).settle.ctl.own.waiting ≠ none ∧
        (station .inService { holding 0 with waiting := some ⟨6, 1⟩ }).settle.ctl.transmit.claim = false) ∧
      ((service 11).settle.need < (service 11).settle.holding ∧ (service 11).settle.ctl.holdOff ≠ none) ∧
      (withEntry (service 11) 9#4 ⟨true, 0, some ⟨6, 2⟩, 3#4, 0, none⟩).settle.ctl.transmit.release = true ∧
      ((withBank0 (solo 0) { loaded with queue := [slot 1#8 (.erase false) .zero 100 .waiting] }).ctl.station = .solo ∧
        (withBank0 (solo 0) { loaded with queue := [slot 1#8 (.erase false) .zero 100 .waiting] }).claimNeeded = true) := by
  decide +kernel

theorem witness_WaitLimitEndsTheOperation :
    (refusal3.heldInReset = false ∧ refusal3.tableSound = true ∧ stands refusal3 .one 2#8 .waiting = true ∧
        refusal3.ctl.settings = some shared16 ∧ shared16.waitLimit ≠ 0) ∧
      State.reset.ctl.settings = none ∧ ((solo 0).ctl.settings = some ⟨.solo, 12, 4, 0⟩ ∧ (solo 0).tableSound = true) ∧
      (stands refusal3 .zero 10#8 .running = true ∧ 10#8 ≠ 2#8) := by decide +kernel

/-- A PROGRAM held after a pulse, whose stores the expiry drops. -/
theorem witness_WaitLimitEndsTheOperation_held :
    (let s := withBank0 (service 0) { programming 5 ⟨.fine, 4⟩ 3 (.pulse .fine) with
        step := none, queue := [{ slot 61#8 (.program 5) .zero 12 .held with pulses := 3, arrayTouched := true }] };
      s.heldInReset = false ∧ s.tableSound = true ∧ stands s .zero 61#8 .held = true ∧ s.ctl.settings = some shared16) := by
  decide +kernel

theorem witness_HoldOffExpiryGivesBackTheExcess :
    ((service 0).heldInReset = false ∧ (service 0).ctl.holdOff = none) ∧
      ({ service 11 with ctl := { (service 11).ctl with holdOff := some 2 } } : State).ctl.holdOff ≠ none ∧
      (({ service 11 with ctl := { (service 11).ctl with holdOff := some 2 } } : State).need < 11 ∧
        (service 11).holding = 11 ∧ (service 11).ctl.station ≠ .solo) ∧
      ((solo 6).need < (solo 6).holding ∧ (solo 6).ctl.station = .solo) := by decide +kernel

theorem witness_RenewalAndLapseFollowTheTimer :
    ((service 5).heldInReset = false ∧ (service 5).ctl.settings = some shared16 ∧ (service 5).ctl.station = .inService ∧
        0 < (service 5).ctl.own.held) ∧
      ({ service 5 with ctl := { (service 5).ctl with renewal := some 20 } } : State).ctl.renewal = some 20 ∧
      ((station .leaving (holding 5)).ctl.station = .leaving ∧ 0 < (station .leaving (holding 5)).ctl.own.held) ∧
      ((solo 5).ctl.station ≠ .inService ∧ (solo 5).ctl.station ≠ .leaving) ∧ (service 5).ctl.renewal = none ∧
      ((service 0).ctl.own.held = 0 ∧ (service 0).ctl.own.waiting = none) := by decide +kernel

/-- A silent holder in service, in other states, and at the end of the learning window. -/
theorem witness_SilenceAndTheWindowQueueEvicts :
    (State.reset.heldInReset = false ∧ State.reset.ctl.settings = none) ∧
      ((withEntry (service 0) 3#4 ⟨true, 5, none, 6#4, 40, none⟩).ctl.settings = some shared16 ∧
        (withEntry (service 0) 3#4 ⟨true, 5, none, 6#4, 40, none⟩).ctl.station = .inService ∧
        3#4 ≠ (service 0).ctl.id ∧
        0 < ((withEntry (service 0) 3#4 ⟨true, 5, none, 6#4, 40, none⟩).ctl.table.entry 3#4).held ∧
        (service 0).ctl.transmit.evict.entry 3#4 = none) ∧
      ((station .configured (holding 0)).ctl.settings = some shared16 ∧
        (station .configured (holding 0)).ctl.station ≠ .inService) ∧
      (({ station .learning (holding 0) with ctl := { (station .learning (holding 0)).ctl with window := some 40 } } :
          State).ctl.window ≠ none ∧ (station .learning (holding 0)).ctl.station = .learning) ∧
      (station .learning (holding 0)).ctl.window = none := by decide +kernel

/-! #### The budget table -/

/-- Two waiters at one level and one above, a table with one waiter, and one with none. -/
theorem witness_PrecedentWaiterRanksFirst :
    (∀ k ∈ stationIds, (clearedTable.entry k).waiting = none) ∧
      (((table7.put 3#4 ⟨true, 0, some ⟨4, 2⟩, 0#4, 0, none⟩).entry 3#4).waiting ≠ none ∧
        ((table7.put 3#4 ⟨true, 0, some ⟨4, 2⟩, 0#4, 0, none⟩).entry 3#4).level = (table7.entry 9#4).level ∧
        3#4 ≠ 9#4 ∧ (3#4).toNat < (9#4).toNat) ∧
      (table7.entry 9#4).waiting ≠ none ∧ (∀ k ∈ stationIds, k ≠ 9#4 → (table7.entry k).waiting = none) := by decide +kernel

/-- Claims that fit by each of the two conditions, and one that fits at its bound. -/
theorem witness_ClaimFitsByTheFitRule :
    fits 16 table7 2#4 (6#8).toNat (0#4).toNat = true ∧ fits 16 table7 2#4 (11#8).toNat (3#4).toNat = true ∧
      fits 16 clearedTable 0#4 (16#8).toNat (0#4).toNat = true ∧ tableTotal table7 ≤ 16 := by decide +kernel

/-- A wait that a RELEASE covers, exactly and not, and a sender other than a target. -/
theorem witness_AppliedFrameChangesItsSendersEntry :
    (table7.entry 2#4).waiting = none ∧ (table7.entry 9#4).waiting = some ⟨6, 2⟩ ∧ 6 ≤ (6#8).toNat ∧ (5#8).toNat < 6 ∧
      (3#4 : StationId) ≠ 9#4 ∧ (∀ target g, Payload.withdraw ≠ .evict target g) :=
  ⟨by decide +kernel, by decide +kernel, by decide, by decide, by decide, fun _ _ h => Payload.noConfusion h⟩

/-- A present and a past generation, an entry that neither holds nor waits, and pending EVICTs that agree, are stale, or are due. -/
theorem witness_EvictsAreAppliedAndExamined :
    (5#4 : StationId) ≠ 2#4 ∧ ((table7.entry 5#4).generation = 9#4 ∧ 0 < (table7.entry 5#4).held) ∧
      (table7.entry 5#4).generation ≠ 8#4 ∧
      ¬ (0 < (table7.entry 6#4).held ∨ (table7.entry 6#4).waiting ≠ none) ∧ (5#4 : StationId) ≠ 0#4 ∧
      (emptyTransmit.evict.put 5#4 (some 9#4)).entry 5#4 = some (table7.entry 5#4).generation ∧
      emptyTransmit.evict.entry 5#4 ≠ some (table7.entry 5#4).generation := by decide +kernel

/-! #### The bus -/

/-- Each kind with a value at the end of its range, from another station than the receiver, and the first and last bit changed. -/
theorem witness_SentFrameIsReceivedAsSent :
    (2#4 : StationId) ≠ 5#4 ∧ (Payload.claim 16#8 15#4).inRange 16 2#4 = true ∧ (Payload.claim 0#8 0#4).inRange 16 2#4 = true ∧
      (Payload.release 16#8).inRange 16 2#4 = true ∧ (Payload.renew 16#8 0#8 0#4).inRange 16 2#4 = true ∧
      (Payload.evict 15#4 15#4).inRange 16 2#4 = true ∧ Payload.withdraw.inRange 16 2#4 = true ∧
      (Payload.hello 0xFFFF#16).inRange 16 2#4 = true ∧ (1 ≤ 1 ∧ 1 ≤ 49) ∧ (1 ≤ 49 ∧ 49 ≤ 49) := by decide +kernel

theorem witness_LowerClassThenLowerIdPrevails :
    (Payload.release 0#8).cls.toNat < (Payload.claim 0#8 0#4).cls.toNat ∧
      ((Payload.claim 8#8 1#4).cls = (Payload.claim 6#8 2#4).cls ∧ (14#4).toNat < (15#4).toNat) := by decide +kernel

/-- The bus is idle for a port. -/
def idlePort : Port := { Port.afterReset with recessiveCount := 6 }

/-- A station in a state on the idle bus with a transmit set. -/
def wanting (st : StationState) (own : Entry) (x : TransmitSet) : State :=
  { station st own with ctl := { (station st own).ctl with transmit := x }, port := idlePort }

/-- A station that has a bank waiting for budget, with CLAIM queued. -/
def claiming : State :=
  { withBank0 (wanting .inService (holding 0) { emptyTransmit with claim := true })
      { loaded with queue := [slot 1#8 (.erase false) .zero 100 .waiting] } with inReset := ⟨false, false, false⟩ }

/-- An own entry that only waits. -/
def waitingOwn : Entry := { holding 0 with waiting := some ⟨6, 1⟩ }

/-- An attempt may start. -/
def mayStart (s : State) : Bool :=
  !s.heldInReset && decide (s.port.framing = .outOfFrame) && decide (6 ≤ s.port.recessiveCount) && !s.port.stuck &&
    s.port.sending.isNone

theorem witness_AttemptStartsWithTheFirstWantedFrame_none :
    held.heldInReset = true ∧ mayStart { service 5 with port := { idlePort with stuck := true } } = false ∧
      mayStart { service 5 with port := { idlePort with recessiveCount := 5 } } = false ∧
      (mayStart { solo 0 with port := idlePort } = true ∧ (solo 0).ctl.station.onBus = false) := by decide +kernel

/-- RELEASE wanted, RENEW wanted, and in LEAVING a RELEASE and, once nothing is held, a RENEW. -/
theorem witness_AttemptStartsWithTheFirstWantedFrame_release_and_renew :
    (let s := wanting .inService (holding 5) { emptyTransmit with release := true };
      mayStart s = true ∧ s.ctl.transmit.release = true ∧ s.need < s.holding) ∧
      (let s := wanting .inService (holding 5) { emptyTransmit with renew := true };
        mayStart s = true ∧ s.ctl.transmit.release = false ∧ s.ctl.transmit.renew = true ∧ 0 < s.ctl.own.held) ∧
      (let s := wanting .leaving (holding 1) { emptyTransmit with release := true };
        mayStart s = true ∧ s.ctl.station = .leaving ∧ 0 < s.holding) ∧
      (let s := wanting .leaving waitingOwn { emptyTransmit with renew := true, withdraw := true };
        mayStart s = true ∧ s.ctl.own.waiting ≠ none ∧ s.holding = 0) := by decide +kernel

/-- A RELEASE that is no longer wanted gives way to a RENEW that came due; a RENEW with nothing to renew. -/
theorem witness_AttemptStartsWithTheFirstWantedFrame_unwanted :
    (let s := wanting .inService (holding 0) { emptyTransmit with renew := true };
      mayStart s = true ∧ s.ctl.transmit.renew = true ∧ s.ctl.own.held = 0 ∧ s.ctl.own.waiting = none) ∧
      (let w := wanting .inService { waitingOwn with held := 0 } { emptyTransmit with release := true };
        let s : State := { w with ctl := { w.ctl with renewal := some 20 } };
        mayStart s = true ∧ s.ctl.transmit.release = true ∧ s.holding ≤ s.need ∧ s.ctl.leaseTicks / 2 ≤ 20 ∧
          s.ctl.own.waiting ≠ none) := by decide +kernel

theorem witness_AttemptStartsWithTheFirstWantedFrame_evict_and_withdraw :
    ((emptyTransmit.evict.put 0#4 (some 3#4)).entry 0#4 = some 3#4 ∧ ¬ ∃ j ∈ stationIds, j.toNat < (0#4).toNat) ∧
      ((emptyTransmit.evict.put 15#4 (some 3#4)).entry 15#4 = some 3#4 ∧
        ∀ j ∈ stationIds, j.toNat < (15#4).toNat → (emptyTransmit.evict.put 15#4 (some 3#4)).entry j = none) ∧
      (∀ k ∈ stationIds, emptyTransmit.evict.entry k = none) ∧
      (let s := wanting .inService waitingOwn { emptyTransmit with withdraw := true };
        mayStart s = true ∧ s.ctl.own.waiting ≠ none ∧ s.claimNeeded = false) ∧
      (let s := wanting .leaving waitingOwn { emptyTransmit with withdraw := true };
        mayStart s = true ∧ s.ctl.own.waiting ≠ none ∧ s.ctl.transmit.renew = false) := by decide +kernel

theorem witness_AttemptStartsWithTheFirstWantedFrame_claim_and_hello :
    (mayStart claiming = true ∧ claiming.ctl.station = .inService ∧ claiming.ctl.transmit.claim = true ∧
        claiming.ctl.transmit.withdraw = false ∧ claiming.ctl.transmit.release = false ∧
        claiming.ctl.transmit.renew = false ∧ claiming.claimNeeded = true) ∧
      (mayStart (wanting .learning (holding 0) { emptyTransmit with hello := true }) = true ∧
        (wanting .learning (holding 0) { emptyTransmit with hello := true }).ctl.station = .learning) ∧
      (mayStart (wanting .learning (holding 0) emptyTransmit) = true ∧ emptyTransmit.hello = false) := by decide +kernel

/-- A CLAIM as it stands on the line, with the objection slot recessive. -/
def claimLine (q : BitVec 8) : Line := frameLine 2#4 164#8 (.claim q 0#4)

/-- One of the bits of a line dominant. -/
def withDominant (l : Line) (k : Nat) : Line := l &&& ~~~(BitVec.twoPow 55 (54 - k))

/-- Off the bus, on it and idle with counts one short of their limits, and a stuck port. -/
theorem witness_LineIsCountedOffTheBus :
    held.heldInReset = true ∧ State.reset.ctl.station = .unconfigured ∧ (solo 0).ctl.station = .solo ∧
      ((station .configured (holding 0)).heldInReset = false ∧ (station .configured (holding 0)).ctl.station ≠ .unconfigured ∧
        (station .configured (holding 0)).ctl.station ≠ .solo ∧ (station .configured (holding 0)).ctl.station.onBus = false) ∧
      ((service 0).ctl.station.onBus = true ∧ idlePort.framing = .outOfFrame ∧ idlePort.sending = none ∧
        6 ≤ idlePort.recessiveCount ∧ Port.afterReset.recessiveCount < 6 ∧
        ({ idlePort with recessiveCount := 15 } : Port).recessiveCount < 16 ∧
        ({ idlePort with dominantCount := 127 } : Port).dominantCount < 128) ∧
      ({ idlePort with stuck := true } : Port).stuck = true := by decide +kernel

/-- A state whose own CLAIM for 6, of a lower id than any other, or for a higher one, stands in its attempt. -/
def contending (p : Payload) : State :=
  { service 6 with port := { Port.afterReset with
      framing := .inFrame [], sending := some ⟨p, frameLine 0#4 164#8 p⟩ } }

/-- A station that lost its attempt at a bit of a frame: every bit before it agrees. -/
def losesAt (drove read : Line) (k : Nat) : Bool :=
  lineBit drove k && !lineBit read k && (List.range k).all fun j => j = 0 || lineBit drove j == lineBit read j

/-- A station on the idle bus. -/
def idle (s : State) : State := { s with port := idlePort }

/-- A CLAIM that fits, one that does not, one refused though it fits, one that another station rejects, a broken one, and a LEAVING
station with nothing left. -/
theorem witness_GoodFrameIsAppliedAndJudged :
    ((idle (service 6)).heldInReset = false ∧ (idle (service 6)).ctl.station.onBus = true ∧ idlePort.framing = .outOfFrame ∧
        idlePort.sending = none ∧ 6 ≤ idlePort.recessiveCount + 0 ∧ idlePort.rejectionRun < 16) ∧
      (lineBit (claimLine 10#8) 0 = false ∧ receiveTests 0#4 164#8 16 (claimLine 10#8) = .good (.claim 10#8 0#4) ∧
        lineRejectDominant (claimLine 10#8) = false ∧ lineBroken (claimLine 10#8) = false ∧
        fits 16 (service 6).ctl.table 2#4 10 0 = true) ∧
      (receiveTests 0#4 164#8 16 (claimLine 11#8) = .good (.claim 11#8 0#4) ∧
        fits 16 (service 6).ctl.table 2#4 11 0 = false) ∧
      (lineObjectionDominant (withDominant (claimLine 10#8) 51) = true ∧
        receiveTests 0#4 164#8 16 (withDominant (claimLine 10#8) 51) = .good (.claim 10#8 0#4)) ∧
      (lineRejectDominant (withDominant (claimLine 10#8) 50) = true ∧
        receiveTests 0#4 164#8 16 (withDominant (claimLine 10#8) 50) = .good (.claim 10#8 0#4)) ∧
      (lineBroken (withDominant (claimLine 10#8) 53) = true ∧
        receiveTests 0#4 164#8 16 (withDominant (claimLine 10#8) 53) = .good (.claim 10#8 0#4)) ∧
      ((station .leaving (holding 0)).ctl.station.onBus = true ∧ (station .leaving (holding 0)).ctl.station = .leaving) := by
  decide +kernel

/-- A RENEW of a known station that states another held value, and contenders that lost in the class field and after the id. -/
theorem witness_GoodFrameIsAppliedAndJudged_renew_and_lost :
    receiveTests 0#4 164#8 16 (frameLine 2#4 164#8 (.renew 4#8 0#8 0#4)) = .good (.renew 4#8 0#8 0#4) ∧
      ((withEntry (service 6) 2#4 ⟨true, 5, none, 0#4, 0, none⟩).ctl.table.entry 2#4).known = true ∧
      ((withEntry (service 6) 2#4 ⟨true, 5, none, 0#4, 0, none⟩).ctl.table.entry 2#4).held ≠ (4#8).toNat ∧
      ((contending (.claim 6#8 0#4)).port.framing = .inFrame [] ∧
        losesAt (frameLine 0#4 164#8 (.claim 6#8 0#4)) (frameLine 2#4 164#8 (.renew 4#8 0#8 0#4)) 1 = true) := by
  decide +kernel

/-- The last three bits of a frame at which the port acts: the reject slot, the objection slot and the frame's end. -/
theorem witness_GoodFrameIsAppliedAndJudged_late_bits :
    (service 6).heldInReset = false ∧ (service 6).ctl.station.onBus = true ∧
      (∀ k ∈ [50, 51, 54], ((lineBits (claimLine 11#8)).take k).length = k) ∧
      lineOfBits ((lineBits (claimLine 11#8)).take 54 ++ [true]) = claimLine 11#8 ∧
      ({ Port.afterReset with framing := .inFrame ((lineBits (claimLine 11#8)).take 50), judgement := some false } : Port).sending =
        none := by decide +kernel

/-- A frame of each finding, unbroken, at the seventh and eighth rejection, and a broken one. -/
theorem witness_RejectedAndForeignFramesAreNotApplied :
    ((idle (service 6)).heldInReset = false ∧ (idle (service 6)).ctl.station.onBus = true ∧
        idlePort.framing = .outOfFrame ∧ idlePort.sending = none ∧ 6 ≤ idlePort.recessiveCount + 0 ∧
        idlePort.rejectionRun < 16) ∧
      (lineBit (claimLine 17#8) 0 = false ∧ receiveTests 0#4 164#8 16 (claimLine 17#8) = .outOfRange ∧
        lineBroken (claimLine 17#8) = false) ∧
      (receiveTests 0#4 164#8 16 (withDominant (claimLine 4#8) 49) = .badCheck ∨
        receiveTests 0#4 164#8 16 (withDominant (claimLine 4#8) 13) = .badCheck) ∧
      (receiveTests 2#4 164#8 16 (claimLine 4#8) = .ownId ∧ lineBroken (claimLine 4#8) = false) ∧
      receiveTests 0#4 86#8 12 (claimLine 4#8) = .foreignDigest ∧
      (receiveTests 0#4 164#8 16 0#55 = .malformed ∧ lineBit 0#55 0 = false ∧ lineBroken 0#55 = true) ∧
      ({ idlePort with rejectRun := 6 } : Port).rejectRun < 7 ∧ 7 ≤ ({ idlePort with rejectRun := 7 } : Port).rejectRun := by
  decide +kernel

/-- Contenders that lost: to a frame of station 2 that is out of range, in the class field, and after the id field to a frame of
another die strapped with the same id. -/
theorem witness_RejectedAndForeignFramesAreNotApplied_lost :
    (losesAt (frameLine 0#4 164#8 (.claim 6#8 0#4)) (frameLine 2#4 164#8 (.release 17#8)) 1 = true ∧
        receiveTests 0#4 164#8 16 (frameLine 2#4 164#8 (.release 17#8)) = .outOfRange) ∧
      (losesAt (frameLine 0#4 164#8 (.claim 6#8 0#4)) (frameLine 0#4 164#8 (.claim 5#8 0#4)) 24 = true ∧ 7 ≤ 24 ∧
        lineStation (frameLine 0#4 164#8 (.claim 6#8 0#4)) = 0#4 ∧
        receiveTests 0#4 164#8 16 (frameLine 0#4 164#8 (.claim 5#8 0#4)) = .ownId) := by decide +kernel

/-- A station in the frame of its own RENEW. -/
def renewing : State := contending (.renew 5#8 0#8 0#4)

/-- The line of that RENEW as the station drives it. -/
def renewLine : Line := frameLine 0#4 164#8 (.renew 5#8 0#8 0#4)

/-- A sender that has read its first bits as it drove them, one that has not, and a port out of frame. -/
theorem witness_SentFrameIsReceivedAsSent_bits :
    (let heard := (lineBits renewLine).take 49;
      heard.length < 50 ∧ (∀ j < 49, heard[j]? = some (lineBit renewLine j)) ∧
        ({ renewing with port := { renewing.port with framing := .inFrame heard } } : State).drives = lineBit renewLine 49) ∧
      (let heard := [false, !lineBit renewLine 1];
        heard.length < 50 ∧ heard[1]? ≠ some (lineBit renewLine 1) ∧
          ({ renewing with port := { renewing.port with framing := .inFrame heard } } : State).drives = true) ∧
      (service 0).port.framing = .outOfFrame := by decide +kernel

/-- The line that the station drove: it remained, the reject slot recessive and dominant. -/
theorem witness_OwnFrameIsAppliedOrCounted :
    (renewing.heldInReset = false ∧ renewing.ctl.station.onBus = true ∧ renewing.port.framing = .inFrame [] ∧
        renewing.port.sending = some ⟨.renew 5#8 0#8 0#4, renewLine⟩ ∧ renewing.port.rejectRun < 8) ∧
      (lineBit renewLine 0 = false ∧ lineBroken renewLine = false ∧ lineRejectDominant renewLine = false) ∧
      ((∀ k < 50, 1 ≤ k → lineBit renewLine k = lineBit (withDominant renewLine 50) k) ∧
        lineRejectDominant (withDominant renewLine 50) = true ∧ lineBroken (withDominant renewLine 50) = false) ∧
      (renewing.port.rejectionRun < 15 ∧
        15 ≤ ({ renewing.port with rejectionRun := 15 } : Port).rejectionRun) := by decide +kernel

/-- The same frame with its first dominant bit after the start read recessive. -/
theorem witness_OwnFrameIsAppliedOrCounted_faulted :
    (∃ k < 50, 1 ≤ k ∧ lineBit renewLine k = false ∧ lineBit (renewLine ||| BitVec.twoPow 55 53) k = true ∧
        ∀ j < k, 1 ≤ j → lineBit renewLine j = lineBit (renewLine ||| BitVec.twoPow 55 53) j) ∧
      lineBroken (renewLine ||| BitVec.twoPow 55 53) = false := by decide +kernel

/-- The sixteenth rejection of the own frame while an ERASE pulse runs. -/
theorem witness_OwnFrameIsAppliedOrCounted_tx_fault :
    let s : State := { withBank0 renewing (erasing 2 (.pulse .erase) []) with
      port := { renewing.port with rejectionRun := 15 } }
    after (.frameEnd 0 (lineBits (withDominant renewLine 50))) s
      (fun t => (t.ctl.station, t.ctl.own.held, t.port.rejectionRun, t.bank0.hostRunning && t.bank0.pauseOrder)) =
        some (.txFault, 0, 16, true) := by decide +kernel

/-- An own CLAIM that does not fit the own copy, and one that the wire refuses though it fits; each state that sends. -/
theorem witness_OwnFrameIsAppliedOrCounted_claims :
    fits 16 (withEntry (service 6) 2#4 ⟨true, 8, none, 0#4, 0, none⟩).ctl.table 0#4 11 0 = false ∧
      (fits 16 (service 6).ctl.table 0#4 11 0 = true ∧
        lineObjectionDominant (withDominant (frameLine 0#4 164#8 (.claim 11#8 0#4)) 51) = true) ∧
      (StationState.learning.onBus = true ∧ StationState.leaving.onBus = true) ∧
      (Payload.hello 0#16).kind = 0#3 := by decide +kernel

/-! #### What every step keeps -/

/-- A sound state whose ERASE verify is about to end, and one whose new ERASE is about to be posted. -/
def verifying : State :=
  { withBank0 (solo 6) (erasing 2 (.verify .erase) []) with pending := [.eraseVerifyEnd .zero false] }

def posting : State := { solo 0 with pending := [.postErase [10#8, 0#8, 0#8, 100#8, 1#8]] }

/-- Every invariant holds together. -/
def soundState (s : State) : Bool :=
  s.canonical && s.tableSound && s.coherent && s.withinBudget && s.quiet && s.drawsWithin

theorem witness_EveryStepKeepsStoresCanonical :
    verifying.canonical = true ∧ (nextOf (step verifying)).isSome = true ∧ posting.canonical = true ∧
      (nextOf (step posting)).isSome = true := by decide +kernel
theorem witness_EveryStepKeepsTheOperationTable :
    posting.tableSound = true ∧ (nextOf (step posting)).map State.slotsInUse = some 1 := by decide +kernel
theorem witness_EveryStepKeepsTheTableWithinBudget :
    posting.withinBudget = true ∧ posting.quiet = true ∧ posting.coherent = true ∧
      (nextOf (step posting)).map State.holding = some 6 := by decide +kernel
theorem witness_EveryStepKeepsThePortQuiet :
    verifying.quiet = true ∧ (nextOf (step verifying)).isSome = true ∧ (service 5).quiet = true ∧
      (nextOf (step { service 5 with pending := [.leave []] })).isSome = true := by decide +kernel
theorem witness_EveryStepKeepsTheBanksCoherent :
    verifying.coherent = true ∧ (nextOf (step verifying)).isSome = true ∧ refusal3.coherent = true ∧
      (withBank0 (solo 0) (pendingWaits.bank .zero)).coherent = true := by decide +kernel
theorem witness_EveryStepKeepsTheDrawWithinBudget :
    verifying.coherent = true ∧ verifying.withinBudget = true ∧ verifying.quiet = true ∧ verifying.drawsWithin = true ∧
      (nextOf (step verifying)).isSome = true := by decide +kernel

/-- A command that is no frame, and a frame row of one bit. -/
theorem witness_NoPulseBeginsBeyondTheBudget_bits :
    (∀ n bits, Instr.eraseVerifyEnd .zero false = .frameEnd n bits → n + bits.length ≤ 1) ∧
      (∀ n bits, Instr.frameEnd 0 [true] = .frameEnd n bits → n + bits.length ≤ 1) :=
  ⟨nofun, fun _ _ h => by cases h; decide⟩

/-- After a verify's end the next pulse begins, and after a post the first one. -/
theorem witness_NoPulseBeginsBeyondTheBudget :
    (soundState verifying = true ∧ verifying.heldInReset = false ∧ endsStepOf .zero (.eraseVerifyEnd .zero false) = true ∧
        after (.eraseVerifyEnd .zero false) verifying
          (fun t => (t.heldInReset, (t.bank .zero).hostRunning, (t.bank .zero).verifying)) = some (false, true, false)) ∧
      (soundState posting = true ∧ (posting.bank .zero).hostRunning = false ∧
        after (.postErase [10#8, 0#8, 0#8, 100#8, 1#8]) posting
          (fun t => (t.heldInReset, (t.bank .zero).hostRunning)) = some (false, true)) := by decide +kernel

end Sys2Proof.Tests
end

/-! # The array's reading rules

What a bank's array reads as after each of its writes: marks by word line, bytes by page, erase-complete marks by block. -/

namespace Sys2Proof.Machine

/-! ### Stores: reading by membership, and slices by what they read -/

section Store

variable {α : Type} [DecidableEq α]

theorem Store.wfFrom_cons {d : α} {lo k : Nat} {v : α} {m : Store α} :
    Store.wfFrom d lo ((k, v) :: m) = true ↔ lo ≤ k ∧ v ≠ d ∧ Store.wfFrom d (k + 1) m = true := by
  simp [Store.wfFrom, and_assoc]

/-- The keys of a canonical store start at its bound. -/
theorem Store.le_of_mem {d : α} {lo : Nat} {m : Store α} (h : Store.wfFrom d lo m = true) : ∀ c ∈ m, lo ≤ c.1 := by
  induction m generalizing lo with
  | nil => simp
  | cons c m ih =>
    obtain ⟨k, v⟩ := c
    obtain ⟨hk, -, hm⟩ := Store.wfFrom_cons.1 h
    intro e he
    rcases List.mem_cons.1 he with rfl | he
    · exact hk
    · have := ih hm e he
      omega

omit [DecidableEq α] in
/-- A key that no entry has reads the unlisted value. -/
theorem Store.get_of_no_key {d : α} {m : Store α} {a : Nat} (h : ∀ c ∈ m, c.1 ≠ a) : Store.get d m a = d := by
  induction m with
  | nil => rfl
  | cons c m ih =>
    obtain ⟨k, v⟩ := c
    obtain ⟨hk, hm⟩ := List.forall_mem_cons.1 h
    simp [Store.get, Ne.symm hk, ih hm]

/-- An entry of a canonical store is what its key reads as. -/
theorem Store.get_of_mem {d : α} {lo : Nat} {m : Store α} (h : Store.wfFrom d lo m = true) {a : Nat} {x : α}
    (hx : (a, x) ∈ m) : Store.get d m a = x := by
  induction m generalizing lo with
  | nil => cases hx
  | cons c m ih =>
    obtain ⟨k, v⟩ := c
    obtain ⟨-, -, hm⟩ := Store.wfFrom_cons.1 h
    rcases List.mem_cons.1 hx with heq | hx
    · cases heq
      simp [Store.get]
    · have hlt := Store.le_of_mem hm _ hx
      dsimp only at hlt
      simp [Store.get, show ¬ a < k by omega, show a ≠ k by omega, ih hm hx]

/-- A change of values at their own keys leaves what a key reads as, where it leaves each entry of that key. -/
theorem Store.get_filterMap_of_kept {d : α} {m : Store α} {f : Nat × α → Option (Nat × α)} {a : Nat}
    (h : Store.wf d m = true) (h' : Store.wf d (m.filterMap f) = true) (key : ∀ c e, f c = some e → e.1 = c.1)
    (kept : ∀ x, f (a, x) = some (a, x)) : Store.get d (m.filterMap f) a = Store.get d m a := by
  by_cases hx : ∃ x, (a, x) ∈ m
  · obtain ⟨x, hx⟩ := hx
    rw [Store.get_of_mem h hx, Store.get_of_mem h' (List.mem_filterMap.2 ⟨_, hx, kept x⟩)]
  · have none : ∀ c ∈ m, c.1 ≠ a := fun c hc e => hx ⟨c.2, e ▸ hc⟩
    rw [Store.get_of_no_key none, Store.get_of_no_key]
    intro e he
    obtain ⟨c, hc, hce⟩ := List.mem_filterMap.1 he
    exact key c e hce ▸ none c hc

/-- Two canonical stores that read the same over a range have the same slice there. -/
theorem Store.slice_congr {d : α} {m m' : Store α} {lo n : Nat} (h : Store.wf d m = true) (h' : Store.wf d m' = true)
    (same : ∀ a, lo ≤ a → a < lo + n → Store.get d m a = Store.get d m' a) :
    Store.slice m lo n = Store.slice m' lo n := by
  refine Store.ext_of_get d (Store.slice_wf d h lo n) (Store.slice_wf d h' lo n) fun a => ?_
  rw [Store.get_slice d lo n h, Store.get_slice d lo n h']
  split
  · exact same _ (by omega) (by omega)
  · rfl

/-- A page written over a range is the slice of that range. -/
theorem Store.slice_blit {d : α} {m p : Store α} {lo n : Nat} (h : Store.wf d m = true) (hp : Store.wf d p = true)
    (below : ∀ c ∈ p, c.1 < n) : Store.slice (Store.blit d m lo n p) lo n = p := by
  refine Store.ext_of_get d (Store.slice_wf d (Store.blit_wf d h lo n p) lo n) hp fun a => ?_
  rw [Store.get_slice d lo n (Store.blit_wf d h lo n p), Store.get_blit d h hp]
  split
  · rw [if_pos (by omega), Nat.add_sub_cancel_left]
  · exact (Store.get_of_no_key fun c hc => by have := below c hc; omega).symm

end Store

/-! ### Keys and addresses (R1) -/

theorem wordLineKey_eq (block w : Nat) : wordLineKey block w = block * 64 + w := rfl

theorem pageBase_eq (block w : Nat) (p : Position) : pageBase block w p = ((block * 64 + w) * 3 + p.code) * 4416 := rfl

theorem Position.code_low : Position.low.code = 0 := rfl

theorem Position.code_lt (p : Position) : p.code < 3 := by cases p <;> decide

theorem Position.code_injective {p q : Position} (h : p.code = q.code) : p = q := by
  cases p <;> cases q <;> cases h <;> rfl

/-- Two word lines have two keys. -/
theorem wordLineKey_ne {block w other v : Nat} (hw : w < 64) (hv : v < 64) (h : block ≠ other ∨ w ≠ v) :
    wordLineKey other v ≠ wordLineKey block w := by
  simp only [wordLineKey_eq]
  omega

/-- Two pages stand at addresses apart. -/
theorem pageBase_apart {block w other v : Nat} {p q : Position} (hw : w < 64) (hv : v < 64)
    (h : block ≠ other ∨ w ≠ v ∨ p ≠ q) :
    pageBase other v q + pageBytes ≤ pageBase block w p ∨ pageBase block w p + pageBytes ≤ pageBase other v q := by
  have hp := p.code_lt
  have hq := q.code_lt
  have hc : block ≠ other ∨ w ≠ v ∨ p.code ≠ q.code := h.imp_right (Or.imp_right (mt Position.code_injective))
  simp only [pageBase_eq, pageBytes]
  omega

/-- A block's pages stand within its addresses. -/
theorem pageBase_within {block w : Nat} (hw : w < 64) (p : Position) :
    pageBase block 0 .low ≤ pageBase block w p ∧
      pageBase block w p + pageBytes ≤ pageBase block 0 .low + blockWordLines * 3 * pageBytes := by
  have hp := p.code_lt
  simp only [pageBase_eq, pageBytes, blockWordLines, Position.code_low]
  omega

/-- A page of another block stands outside a block's addresses. -/
theorem pageBase_outside {block other v : Nat} (h : other ≠ block) (hv : v < 64) (q : Position) :
    pageBase other v q + pageBytes ≤ pageBase block 0 .low ∨
      pageBase block 0 .low + blockWordLines * 3 * pageBytes ≤ pageBase other v q := by
  have hq := q.code_lt
  simp only [pageBase_eq, pageBytes, blockWordLines, Position.code_low]
  omega

/-! ### Marks, bytes and erase-complete marks read back (R4, R6) -/

namespace ArrayBank

variable {a : ArrayBank}

theorem marksOf_setMarks_same (h : a.canonical = true) (block w : Nat) (m : PassMarks) :
    (a.setMarks block w m).marksOf block w = m :=
  Store.get_set_same _ 0 _ (canonical_iff.1 h).2.1 _ _

theorem marksOf_setMarks_other (h : a.canonical = true) {block w other v : Nat} (hw : w < 64) (hv : v < 64)
    (hne : block ≠ other ∨ w ≠ v) (m : PassMarks) : (a.setMarks block w m).marksOf other v = a.marksOf other v :=
  Store.get_set_other _ 0 _ (canonical_iff.1 h).2.1 (wordLineKey_ne hw hv hne) _

theorem eraseComplete_setEraseComplete_same (h : a.canonical = true) (block : Nat) (present : Bool) :
    (a.setEraseComplete block present).eraseComplete block = present :=
  Store.get_set_same _ 0 _ (canonical_iff.1 h).2.2 _ _

theorem eraseComplete_setEraseComplete_other (h : a.canonical = true) {block other : Nat} (hne : block ≠ other)
    (present : Bool) : (a.setEraseComplete block present).eraseComplete other = a.eraseComplete other :=
  Store.get_set_other _ 0 _ (canonical_iff.1 h).2.2 hne.symm _

/-- Arrays whose bytes read the same over a page hold the same page there. -/
theorem page_congr {c : ArrayBank} (h : a.canonical = true) (hc : c.canonical = true) {block w : Nat} {p : Position}
    (same : ∀ k, pageBase block w p ≤ k → k < pageBase block w p + pageBytes →
      Store.get blankByte a.cells k = Store.get blankByte c.cells k) : a.page block w p = c.page block w p :=
  Store.slice_congr (canonical_iff.1 h).1 (canonical_iff.1 hc).1 same

theorem page_writePage_same (h : a.canonical = true) (block w : Nat) (p : Position) {page : Page}
    (hp : pageWf page = true) : (a.writePage block w p page).page block w p = page :=
  Store.slice_blit (canonical_iff.1 h).1 (pageWf_iff.1 hp).1 (pageWf_iff.1 hp).2

theorem page_writePage_other (h : a.canonical = true) {block w other v : Nat} {p q : Position} (hw : w < 64)
    (hv : v < 64) (hne : block ≠ other ∨ w ≠ v ∨ p ≠ q) {page : Page} (hp : pageWf page = true) :
    (a.writePage block w p page).page other v q = a.page other v q := by
  refine page_congr (writePage_canonical h ..) h fun k hlo hhi => ?_
  have apart := pageBase_apart hw hv hne
  exact (Store.get_blit _ (canonical_iff.1 h).1 (pageWf_iff.1 hp).1 _ _ _).trans (if_neg (by omega))

/-- A page written leaves the other two of its word line. -/
theorem page_writePage_beside (h : a.canonical = true) {block w : Nat} {p q : Position} (hw : w < 64) (hne : p ≠ q)
    {page : Page} (hp : pageWf page = true) : (a.writePage block w p page).page block w q = a.page block w q :=
  page_writePage_other h hw hw (.inr (.inr hne)) hp

end ArrayBank

theorem trioWf_iff {t : Trio Page} :
    trioWf t = true ↔ pageWf t.low = true ∧ pageWf t.middle = true ∧ pageWf t.high = true := by
  simp [trioWf, and_assoc]

namespace ArrayBank

variable {a : ArrayBank}

theorem page_writeWordLine_same (h : a.canonical = true) {block w : Nat} (hw : w < 64) {pages : Trio Page}
    (hp : trioWf pages = true) (p : Position) : (a.writeWordLine block w pages).page block w p = pages.get p := by
  obtain ⟨low, middle, high⟩ := trioWf_iff.1 hp
  have h1 := writePage_canonical h block w .low pages.low
  have h2 := writePage_canonical h1 block w .middle pages.middle
  cases p with
  | low =>
    calc (a.writeWordLine block w pages).page block w .low
        = _ := page_writePage_beside h2 hw (by decide) high
      _ = _ := page_writePage_beside h1 hw (by decide) middle
      _ = pages.low := page_writePage_same h block w .low low
  | middle =>
    calc (a.writeWordLine block w pages).page block w .middle
        = _ := page_writePage_beside h2 hw (by decide) high
      _ = pages.middle := page_writePage_same h1 block w .middle middle
  | high => exact page_writePage_same h2 block w .high high

theorem page_writeWordLine_other (h : a.canonical = true) {block w other v : Nat} (hw : w < 64) (hv : v < 64)
    (hne : block ≠ other ∨ w ≠ v) {pages : Trio Page} (hp : trioWf pages = true) (q : Position) :
    (a.writeWordLine block w pages).page other v q = a.page other v q := by
  obtain ⟨low, middle, high⟩ := trioWf_iff.1 hp
  have h1 := writePage_canonical h block w .low pages.low
  have h2 := writePage_canonical h1 block w .middle pages.middle
  have apart : ∀ p, block ≠ other ∨ w ≠ v ∨ p ≠ q := fun p => hne.imp_right .inl
  calc (a.writeWordLine block w pages).page other v q
      = _ := page_writePage_other h2 hw hv (apart .high) high
    _ = _ := page_writePage_other h1 hw hv (apart .middle) middle
    _ = a.page other v q := page_writePage_other h hw hv (apart .low) low

/-! ### A block cleared or cut (R8, R16) -/

theorem marksOf_clearBlock_same (h : a.canonical = true) (block : Nat) {w : Nat} (hw : w < 64) :
    (a.clearBlock block).marksOf block w = noMarks :=
  (Store.get_clear _ (canonical_iff.1 h).2.1 _ _ _).trans
    (if_pos (by simp only [wordLineKey_eq, blockWordLines]; omega))

theorem marksOf_clearBlock_other (h : a.canonical = true) {block other w : Nat} (hne : other ≠ block) (hw : w < 64) :
    (a.clearBlock block).marksOf other w = a.marksOf other w :=
  (Store.get_clear _ (canonical_iff.1 h).2.1 _ _ _).trans
    (if_neg (by simp only [wordLineKey_eq, blockWordLines]; omega))

theorem page_clearBlock_same (h : a.canonical = true) (block : Nat) {w : Nat} (hw : w < 64) (p : Position) :
    (a.clearBlock block).page block w p = [] := by
  have within := pageBase_within (block := block) hw p
  refine Store.slice_congr (m' := []) (canonical_iff.1 (clearBlock_canonical h block)).1 rfl fun k hlo hhi => ?_
  exact (Store.get_clear _ (canonical_iff.1 h).1 _ _ _).trans (if_pos (by omega))

theorem page_clearBlock_other (h : a.canonical = true) {block other w : Nat} (hne : other ≠ block) (hw : w < 64)
    (p : Position) : (a.clearBlock block).page other w p = a.page other w p := by
  have outside := pageBase_outside hne hw p
  refine page_congr (clearBlock_canonical h block) h fun k hlo hhi => ?_
  exact (Store.get_clear _ (canonical_iff.1 h).1 _ _ _).trans (if_neg (by omega))

theorem marksOf_cutErase_other (h : a.canonical = true) {block other w : Nat} (cut : Nat) (hne : other ≠ block)
    (hw : w < 64) : (a.cutErase block cut).marksOf other w = a.marksOf other w := by
  have outside : wordLineKey other w < wordLineKey block 0 ∨
      wordLineKey block 0 + blockWordLines ≤ wordLineKey other w := by
    simp only [wordLineKey_eq, blockWordLines]
    omega
  refine Store.get_filterMap_of_kept (canonical_iff.1 h).2.1 (canonical_iff.1 (cutErase_canonical h block cut)).2.1
    (fun c e hc => ?_) fun x => if_pos outside
  dsimp only at hc
  split at hc
  · cases hc; rfl
  · split at hc
    · cases hc
    · cases hc; rfl

theorem page_cutErase_other (h : a.canonical = true) {block other w : Nat} (cut : Nat) (hne : other ≠ block)
    (hw : w < 64) (p : Position) : (a.cutErase block cut).page other w p = a.page other w p := by
  have outside := pageBase_outside hne hw p
  refine page_congr (cutErase_canonical h block cut) h fun k hlo hhi => ?_
  refine (Store.get_filter _ (fun k => decide (k < pageBase block 0 .low) ||
    decide (pageBase block 0 .low + blockWordLines * 3 * pageBytes ≤ k) || Config.byteRemains cut k)
    (canonical_iff.1 h).1 k).trans (if_pos ?_)
  have : k < pageBase block 0 .low ∨ pageBase block 0 .low + blockWordLines * 3 * pageBytes ≤ k := by omega
  simp [this]

end ArrayBank

/-- Settles O20, from the reading rule of each write. -/
theorem arrayReadsBackWhatIsWritten : Obligations.ArrayReadsBackWhatIsWritten := by
  intro a block w other v m pages p present h hp hw hv
  exact ⟨ArrayBank.marksOf_setMarks_same h block w m,
    fun hne => ArrayBank.marksOf_setMarks_other h hw hv hne m,
    ArrayBank.page_writeWordLine_same h hw hp p,
    fun hne => ArrayBank.page_writeWordLine_other h hw hv hne hp p,
    ArrayBank.eraseComplete_setEraseComplete_same h block present,
    fun hne => ArrayBank.eraseComplete_setEraseComplete_other h hne present,
    fun _ _ _ => ⟨rfl, rfl, rfl, rfl, rfl, rfl⟩,
    ArrayBank.setMarks_canonical h block w m,
    ArrayBank.writeWordLine_canonical h block w pages,
    ArrayBank.setEraseComplete_canonical h block present⟩

end Sys2Proof.Machine

/-! # Senses, pulse ends and the die reset

What a sense answers, what the end of a pulse does to the array, and what a die reset cuts and leaves. -/

namespace Sys2Proof.Machine

/-! ### The condition of a word line and a sense (R5, R14) -/

/-- The four marks stand for five conditions, and no other set of marks is legal (R5). -/
theorem PassMarks.legal_iff (m : PassMarks) :
    m.legal = true ↔ m ∈ ([⟨false, false, false, false⟩, ⟨true, false, false, false⟩, ⟨true, true, false, false⟩,
      ⟨true, true, true, false⟩, ⟨true, true, true, true⟩] : List PassMarks) := by
  obtain ⟨cb, cd, fb, fd⟩ := m
  cases cb <;> cases cd <;> cases fb <;> cases fd <;> decide

namespace ArrayBank

variable {a : ArrayBank} {block w : Nat}

theorem condition_of_marks {m : PassMarks} (h : a.marksOf block w = m) : a.condition block w = m.condition :=
  congrArg PassMarks.condition h

section Sense

variable (p : Position) (cells : Option Page) (owner : SenseOwner)

theorem sense_outcome_unclean (h : a.eraseComplete block = false) :
    (a.sense block w p cells owner).outcome = .torn := by
  simp [sense, senseOutcome, h]

theorem sense_outcome_of_condition (h : a.eraseComplete block = true) {c : WordLineCondition}
    (hc : a.condition block w = c) : (a.sense block w p cells owner).outcome = senseOutcome true c := by
  simp [sense, h, hc]

theorem sense_page_erased (h : a.eraseComplete block = true) (hc : a.condition block w = .erased) :
    (a.sense block w p cells owner).page = [] := by
  simp [sense, sensedPage, h, hc]

theorem sense_page_fine (h : a.eraseComplete block = true) (hc : a.condition block w = .fine) (hb : block < hostBlocks) :
    (a.sense block w p cells owner).page = a.page block w p := by
  simp [sense, sensedPage, h, hc, isMapBlock, hb]

end Sense

end ArrayBank

/-- Settles O21, condition by condition. -/
theorem senseOutcomeFollowsTheMarks : Obligations.SenseOutcomeFollowsTheMarks := by
  intro a block w p cells owner r marks
  have outcome := @ArrayBank.sense_outcome_of_condition a block w p cells owner
  refine ⟨ArrayBank.condition_of_marks, ArrayBank.condition_of_marks, ArrayBank.condition_of_marks,
    ArrayBank.condition_of_marks, ArrayBank.condition_of_marks, marks.legal_iff,
    ArrayBank.sense_outcome_unclean p cells owner, fun complete => ⟨?erased, outcome complete, outcome complete,
      outcome complete, ?fine⟩, rfl, rfl⟩
  case erased => exact fun hc => ⟨outcome complete hc, ArrayBank.sense_page_erased p cells owner complete hc⟩
  case fine =>
    refine fun hc => ⟨outcome complete hc, fun host => ?_⟩
    exact ArrayBank.sense_page_fine p cells owner complete hc (Nat.lt_succ_of_le host)

/-! ### The end of a pulse (R2, R8) -/

/-- Where the first erase pulse of a block is under way: a host ERASE at its first pulse, or a MAP_REWRITE's erase at its
first. -/
theorem Bank.firstErasePulseOf_eq_some {bk : Bank} {use : PulseUse} {block : Nat} :
    bk.firstErasePulseOf use = some block ↔
      (use = .erase ∧ ∃ sl behind, bk.queue = sl :: behind ∧ sl.pulses = 1 ∧ sl.block = block) ∨
        (use = .mapErase ∧ ∃ begun, bk.internal = some ⟨.rewriteErase 1, begun⟩ ∧
          mapBlockNumber bk.otherMapBlock = block) := by
  cases use with
  | erase => cases hq : bk.queue <;> simp [Bank.firstErasePulseOf, hq]
  | mapErase =>
    by_cases h : ∃ begun, bk.internal = some ⟨.rewriteErase 1, begun⟩
    · obtain ⟨begun, h⟩ := h
      simp [Bank.firstErasePulseOf, h]
    · have none : bk.firstErasePulseOf .mapErase = none := by
        dsimp only [Bank.firstErasePulseOf]
        split
        · rename_i begun hi
          exact absurd ⟨begun, hi⟩ h
        · rfl
      simp only [none, reduceCtorEq, false_and, false_or, true_and, false_iff]
      exact fun ⟨begun, hi, _⟩ => h ⟨begun, hi⟩
  | coarse => simp [Bank.firstErasePulseOf]
  | fine => simp [Bank.firstErasePulseOf]
  | mapPage => simp [Bank.firstErasePulseOf]

/-- The array after the end of a pulse: one block cleared, or all as it was. -/
theorem Bank.pulseEnded_array (bk : Bank) (use : PulseUse) :
    (bk.firstErasePulseOf use = none ∧ (bk.pulseEnded use).array = bk.array) ∨
      ∃ block, bk.firstErasePulseOf use = some block ∧ (bk.pulseEnded use).array = bk.array.clearBlock block := by
  cases h : bk.firstErasePulseOf use with
  | none => exact .inl ⟨rfl, by simp [Bank.pulseEnded, h]⟩
  | some block => exact .inr ⟨block, rfl, by simp [Bank.pulseEnded, h]⟩

theorem exec_pulseEnd_refused {s : State} {b : BankId}
    (h : s.heldInReset = true ∨ ∀ use, (s.bank b).step ≠ some (.pulse use)) :
    exec (.pulseEnd b) s = .refused .stepNotUnderWay := by
  show execPulseEnd b s = _
  unfold execPulseEnd
  split
  · rfl
  · rename_i hr
    have none := h.resolve_left hr
    split
    · rename_i use hu
      exact absurd hu (none use)
    all_goals rfl

theorem exec_pulseEnd {s : State} {b : BankId} {use : PulseUse} (hr : s.heldInReset = false)
    (hs : (s.bank b).step = some (.pulse use)) :
    exec (.pulseEnd b) s = .next (s.setBank b ((s.bank b).pulseEnded use)) := by
  show execPulseEnd b s = _
  simp [execPulseEnd, hr, hs]

/-- Settles O22: the array is cleared for a first erase pulse and left otherwise. -/
theorem pulseEndBeginsTheVerify : Obligations.PulseEndBeginsTheVerify := by
  refine fun s b => ⟨exec_pulseEnd_refused, fun use hr hs => ?_⟩
  intro first
  refine ⟨((s.bank b).pulseEnded use).array, exec_pulseEnd hr hs, ?_⟩
  rcases (s.bank b).pulseEnded_array use with ⟨hf, ha⟩ | ⟨block, hf, ha⟩
  · rw [ha]
    refine ⟨rfl, fun _ => rfl, fun block hb => ?_⟩
    cases hf.symm.trans (Bank.firstErasePulseOf_eq_some.2 hb)
  · rw [ha]
    refine ⟨rfl, fun no => absurd (Bank.firstErasePulseOf_eq_some.1 hf) (no block), fun block' hb hc w p hw => ?_⟩
    obtain rfl : block = block' := Option.some.inj (hf.symm.trans (Bank.firstErasePulseOf_eq_some.2 hb))
    exact ⟨ArrayBank.marksOf_clearBlock_same hc block hw, ArrayBank.page_clearBlock_same hc block hw p,
      fun other hne => ⟨ArrayBank.marksOf_clearBlock_other hc hne hw, ArrayBank.page_clearBlock_other hc hne hw p⟩⟩

/-! ### The die reset (R16, R178 to R180) -/

theorem exec_dieReset {s : State} (h : s.ready = true) :
    exec (.dieReset []) s = .next { s with link := { s.link with response := [0x00#8], resetTaken := true } } := by
  show execDieReset [] s = _
  rw [execDieReset, State.transaction_ready h]
  rfl

theorem exec_dieResetBegin {s : State} {source : ResetSource} (h : source = .command → s.link.resetTaken = true) :
    exec (.dieResetBegin source) s = .next (s.beginReset source) :=
  if_neg fun ⟨hs, ht⟩ => by simp [h hs] at ht

theorem State.beginReset_bank (s : State) (source : ResetSource) (b : BankId) :
    ∃ cut, (s.beginReset source).bank b = (s.bank b).cutStep cut := by
  cases b
  · exact ⟨s.fresh, rfl⟩
  · exact ⟨s.fresh + 1, rfl⟩

theorem State.beginReset_heldInReset (s : State) (source : ResetSource) : (s.beginReset source).heldInReset = true := by
  cases source <;> simp [State.beginReset, State.heldInReset, ResetHold.begin]

theorem Bank.cutStep_array_of_none {bk : Bank} (h : bk.erasePulseCut = none) (cut : Nat) :
    (bk.cutStep cut).array = bk.array := by
  simp [Bank.cutStep, h]

theorem Bank.cutStep_array_of_some {bk : Bank} {block : Nat} (h : bk.erasePulseCut = some block) (cut : Nat) :
    (bk.cutStep cut).array = bk.array.cutErase block cut := by
  simp [Bank.cutStep, h]

/-- Settles O18, from what a cut step leaves of its bank. -/
theorem dieResetIsAnsweredThenCutsTheSteps : Obligations.DieResetIsAnsweredThenCutsTheSteps := by
  refine fun s source => ⟨exec_dieReset, fun hs ht => if_pos ⟨hs, by simp [ht]⟩, fun h => ?_⟩
  have held := s.beginReset_heldInReset source
  refine ⟨_, exec_dieResetBegin h, held, by simp [State.attentionAsserted, held], ?inReset, rfl, rfl, rfl, rfl, rfl,
    fun b => ?banks⟩
  case inReset => cases source <;> rfl
  case banks =>
    obtain ⟨cut, hb⟩ := s.beginReset_bank source b
    refine ⟨((s.bank b).cutStep cut).array, hb, fun hn => Bank.cutStep_array_of_none hn cut, fun block hc => ?_⟩
    rw [Bank.cutStep_array_of_some hc]
    exact ⟨rfl, fun canon other w p hne hw =>
      ⟨ArrayBank.marksOf_cutErase_other canon cut hne hw, ArrayBank.page_cutErase_other canon cut hne hw p⟩⟩

theorem exec_dieResetEnd_last {s : State} {source : ResetSource} (hh : s.inReset.holds source = true)
    (hf : s.inReset.finish source = ResetHold.none) (straps : StationId) (nonce : Nonce) (hselLow : Bool) :
    exec (.dieResetEnd source straps nonce hselLow) s = .next (s.afterReset straps nonce hselLow) := by
  show execDieResetEnd source straps nonce hselLow s = _
  simp [execDieResetEnd, hh, hf]

theorem exec_dieResetEnd_other {s : State} {source : ResetSource} (hh : s.inReset.holds source = true)
    (hf : s.inReset.finish source ≠ ResetHold.none) (straps : StationId) (nonce : Nonce) (hselLow : Bool) :
    exec (.dieResetEnd source straps nonce hselLow) s = .next { s with inReset := s.inReset.finish source } := by
  show execDieResetEnd source straps nonce hselLow s = _
  simp [execDieResetEnd, hh, hf]

theorem exec_dieResetEnd_refused {s : State} {source : ResetSource} (hh : s.inReset.holds source = false)
    (straps : StationId) (nonce : Nonce) (hselLow : Bool) :
    exec (.dieResetEnd source straps nonce hselLow) s = .refused .resetSourceAbsent := by
  show execDieResetEnd source straps nonce hselLow s = _
  simp [execDieResetEnd, hh]

/-- Every entry of a cleared table is a cleared one (R102). -/
@[simp] theorem clearedTable_entry (k : StationId) : clearedTable.entry k = clearedEntry := by
  simp [clearedTable, PerStation.entry]

theorem State.afterReset_own (s : State) (straps : StationId) (nonce : Nonce) (hselLow : Bool) :
    (s.afterReset straps nonce hselLow).ctl.own = clearedEntry :=
  clearedTable_entry straps

/-- The status view of a die that has come out of reset (R174, R183). -/
theorem State.afterReset_statusView (s : State) (straps : StationId) (nonce : Nonce) (hselLow : Bool) :
    (s.afterReset straps nonce hselLow).statusView =
      [0, BitVec.ofNat 8 straps.toNat, 0, 0, 0, 0, 0, 0, 4, 0, 2, 2, 0, 0, 0, 0, 0, 0,
        1, 0, 0, 255, 255, 255, 0, 1, 0, 0, 255, 255, 255, 0, 0] := by
  simp only [State.statusView, State.holding, State.afterReset_own]
  rfl

/-- Settles O19: every field of the die-reset state is read off its definition. -/
theorem resetEndLeavesTheDieResetState : Obligations.ResetEndLeavesTheDieResetState := by
  refine fun s source straps nonce hselLow => ⟨fun hh => exec_dieResetEnd_refused hh straps nonce hselLow,
    fun hh hf => exec_dieResetEnd_other hh hf straps nonce hselLow, fun hh hf => ?_⟩
  refine ⟨_, exec_dieResetEnd_last hh hf straps nonce hselLow, s.afterReset_statusView straps nonce hselLow, rfl, rfl,
    rfl, rfl, rfl, rfl, rfl, rfl, rfl, clearedTable_entry, rfl, rfl, rfl, rfl, fun b => ?banks, rfl, rfl, rfl, rfl, rfl,
    rfl, rfl, rfl⟩
  case banks =>
    cases b <;> exact ⟨rfl, rfl, rfl, rfl, rfl, rfl, rfl, fun _ => rfl, fun p => by cases p <;> rfl⟩

end Sys2Proof.Machine

/-! # Pulses and verifies of the passes and of the map pages

The pulse a bank gives next, and what the end of each verify makes of its bank. -/

namespace Sys2Proof.Machine

/-! ### The next pulse (R8 to R10, R57) -/

theorem PassKind.use_eq (k : PassKind) : k.use = if k = .coarse then .coarse else .fine := by cases k <;> rfl

theorem Bank.nextPulse_program_first {bk : Bank} {sl : Slot} {w : Nat} (ho : sl.op = .program w) (hp : bk.pass = none) :
    bk.nextPulse sl = bk.firstCoarsePulse sl w := by
  simp [Bank.nextPulse, ho, hp]

theorem Bank.nextPulse_of_pass {bk : Bank} {sl : Slot} {p : Pass} (ho : (∃ w, sl.op = .program w) ∨ sl.op = .finish)
    (hp : bk.pass = some p) : bk.nextPulse sl = bk.passPulse sl p := by
  rcases ho with ⟨w, ho⟩ | ho <;> simp [Bank.nextPulse, ho, hp]

theorem Bank.nextPulse_erase {bk : Bank} {sl : Slot} {e : Bool} (ho : sl.op = .erase e) :
    bk.nextPulse sl = bk.erasePulse sl := by
  simp [Bank.nextPulse, ho]

theorem Bank.opens_iff {bk : Bank} {block : Nat} : bk.opens block = true ↔ ∃ r, bk.openBlock = some r ∧ r.block = block := by
  cases h : bk.openBlock <;> simp [Bank.opens, h]

theorem Bank.passPulse_of_pass {bk : Bank} {p : Pass} (hp : bk.pass = some p) (sl : Slot) :
    bk.passPulse sl p = { bk with
      passPulses := bk.passPulses + 1
      array := (bk.passPulse sl p).array
      queue := updateTag sl.tag (fun x => x.pulsed (bk.passPulses + 1)) bk.queue
      step := some (.pulse p.kind.use) } := by
  simp [Bank.passPulse, hp]

theorem Bank.erasePulse_again {bk : Bank} {sl : Slot} (h : 0 < sl.pulses) :
    bk.erasePulse sl = { bk with
      queue := updateTag sl.tag (fun x => x.pulsed (sl.pulses + 1)) bk.queue, step := some (.pulse .erase) } := by
  simp [Bank.erasePulse, Nat.ne_of_gt h]

theorem Bank.erasePulse_first {bk : Bank} {sl : Slot} (h : sl.pulses = 0) :
    bk.erasePulse sl = { bk with
      openBlock := if bk.opens sl.block = true then none else bk.openBlock
      pendingSlot := if bk.opens sl.block = true then none else bk.pendingSlot
      array := bk.array.setEraseComplete sl.block false
      queue := updateTag sl.tag (fun x => x.pulsed 1) bk.queue
      step := some (.pulse .erase) } := by
  simp [Bank.erasePulse, h]

/-- Settles O25, by the operation's kind and whether its pass or erase has had a pulse. -/
theorem nextPulseBeginsItsPass : Obligations.NextPulseBeginsItsPass := by
  refine fun bk sl => ⟨fun w ho hp => Bank.nextPulse_program_first ho hp, fun p ho hp => ?pass, fun e ho => ?erase⟩
  case pass =>
    refine ⟨(bk.passPulse sl p).array, ?_, fun h => if_neg (Nat.ne_of_gt h), fun h hk => ?_⟩
    · rw [Bank.nextPulse_of_pass ho hp, ← PassKind.use_eq]
      exact Bank.passPulse_of_pass hp sl
    · simp [Bank.passPulse, h, hk, PassMarks.begin]
  case erase =>
    rw [Bank.nextPulse_erase ho]
    refine ⟨Bank.erasePulse_again, fun h => ⟨_, _, Bank.erasePulse_first h, fun opened => ?_, fun closed => ?_⟩⟩
    · exact ⟨if_pos (Bank.opens_iff.2 opened), if_pos (Bank.opens_iff.2 opened)⟩
    · exact ⟨if_neg (mt Bank.opens_iff.1 closed), if_neg (mt Bank.opens_iff.1 closed)⟩

/-! ### The end of a verify (R58 to R65, R163 to R166) -/

section Ends

variable {s : State} {b : BankId} {passed : Bool} {u : Turn} (hr : s.heldInReset = false)

include hr

theorem exec_coarseVerifyEnd (hs : (s.bank b).step = some (.verify .coarse))
    (hu : (s.bank b).coarseVerify passed (s.gateAdmits b) = some u) :
    exec (.coarseVerifyEnd b passed) s = .next (s.conclude b u) :=
  State.stepEnd_some (finish := fun bk gate => bk.coarseVerify passed gate) hr hs hu

theorem exec_fineVerifyEnd (hs : (s.bank b).step = some (.verify .fine))
    (hu : (s.bank b).fineVerify passed (s.gateAdmits b) = some u) :
    exec (.fineVerifyEnd b passed) s = .next (s.conclude b u) :=
  State.stepEnd_some (finish := fun bk gate => bk.fineVerify passed gate) hr hs hu

theorem exec_mapPageVerifyEnd (hs : (s.bank b).step = some (.verify .mapPage))
    (hu : (s.bank b).mapPageVerify passed = some u) :
    exec (.mapPageVerifyEnd b passed) s = .next (s.conclude b u) :=
  State.stepEnd_some (finish := fun bk _ => bk.mapPageVerify passed) hr hs hu

end Ends

section Passes

variable {bk : Bank} {sl : Slot} {behind : List Slot} {w v : Nat} {pages : Trio Page} {ps : PendingSlot} {gate : Bool}

theorem Bank.programDone_of_latch (hl : bk.latch = some pages) : bk.programDone sl w =
    ⟨{ bk with
        step := none, pauseOrder := false
        pendingSlot := some ⟨sl.block, w, pages⟩, openBlock := some ⟨sl.block, w + 1⟩
        latch := none, pass := none, passPulses := 0
        queue := removeTag sl.tag bk.queue }, [sl.finish .ok noFlags]⟩ := by
  simp [Bank.programDone, hl, Bank.atRest, Bank.endSlot]

theorem Bank.blockClosed_eq : bk.blockClosed sl =
    ⟨{ bk with
        step := none, pauseOrder := false
        pendingSlot := none, openBlock := none, latch := none, pass := none, passPulses := 0
        queue := removeTag sl.tag bk.queue }, [sl.finish .ok noFlags]⟩ := rfl

theorem Bank.coarseVerify_passed_zero (hq : bk.queue = sl :: behind) (ho : sl.op = .program 0)
    (hp : bk.pass = some ⟨.coarse, v⟩) :
    bk.coarseVerify true gate = some ((bk.passDone sl ⟨.coarse, v⟩).programDone sl 0) := by
  simp [Bank.coarseVerify, hq, hp, ho]

theorem Bank.coarseVerify_passed_above (hq : bk.queue = sl :: behind) (ho : sl.op = .program w)
    (hp : bk.pass = some ⟨.coarse, v⟩) (hw : 1 ≤ w) :
    bk.coarseVerify true gate =
      some (((bk.passDone sl ⟨.coarse, v⟩).nextPass ⟨.fine, w - 1⟩).boundary sl gate) := by
  simp [Bank.coarseVerify, hq, hp, ho, Nat.ne_of_gt hw]

theorem Bank.coarseVerify_failed_last (hq : bk.queue = sl :: behind) (ho : sl.op = .program w)
    (hp : bk.pass = some ⟨.coarse, v⟩) (hn : 10 ≤ bk.passPulses) :
    bk.coarseVerify false gate = some (bk.failHead sl ⟨.programFail, some .coarse, some v⟩) := by
  simp [Bank.coarseVerify, hq, hp, ho, coarseLimit, hn, Bank.failPass]

theorem Bank.coarseVerify_failed_before (hq : bk.queue = sl :: behind) (ho : sl.op = .program w)
    (hp : bk.pass = some ⟨.coarse, v⟩) (hn : bk.passPulses < 10) :
    bk.coarseVerify false gate = some (bk.boundary sl gate) := by
  simp [Bank.coarseVerify, hq, hp, ho, coarseLimit, Nat.not_le_of_lt hn]

theorem Bank.finePages_program_other (ho : sl.op = .program w) (hv : v ≠ w) (hps : bk.pendingSlot = some ps) :
    bk.finePages sl v = ps.pages := by
  simp [Bank.finePages, ho, hv, hps]

theorem Bank.finePages_program_own (ho : sl.op = .program w) (hl : bk.latch = some pages) :
    bk.finePages sl w = pages := by
  simp [Bank.finePages, ho, hl]

theorem Bank.finePages_finish (ho : sl.op = .finish) (hps : bk.pendingSlot = some ps) (v : Nat) :
    bk.finePages sl v = ps.pages := by
  simp [Bank.finePages, ho, hps]

/-- A fine pass that has succeeded has placed the pages that it took. -/
theorem Bank.fineDone_of_pages (hf : bk.finePages sl v = pages) :
    bk.fineDone sl ⟨.fine, v⟩ = { bk with
      array := (bk.array.setMarks sl.block v
        { bk.array.marksOf sl.block v with fineDone := true }).writeWordLine sl.block v pages } := by
  subst hf
  rfl

theorem Bank.fineVerify_passed_below (hq : bk.queue = sl :: behind) (ho : sl.op = .program w)
    (hp : bk.pass = some ⟨.fine, v⟩) (hw : w < 63) :
    bk.fineVerify true gate = some ((bk.fineDone sl ⟨.fine, v⟩).programDone sl w) := by
  simp [Bank.fineVerify, hq, hp, ho, hw]

theorem Bank.fineVerify_passed_first (hq : bk.queue = sl :: behind) (ho : sl.op = .program 63)
    (hp : bk.pass = some ⟨.fine, v⟩) (hv : v < 63) :
    bk.fineVerify true gate = some (((bk.fineDone sl ⟨.fine, v⟩).nextPass ⟨.fine, 63⟩).boundary sl gate) := by
  simp [Bank.fineVerify, hq, hp, ho, hv]

theorem Bank.fineVerify_passed_second (hq : bk.queue = sl :: behind) (ho : sl.op = .program 63)
    (hp : bk.pass = some ⟨.fine, 63⟩) :
    bk.fineVerify true gate = some ((bk.fineDone sl ⟨.fine, 63⟩).blockClosed sl) := by
  simp [Bank.fineVerify, hq, hp, ho]

theorem Bank.fineVerify_passed_finish (hq : bk.queue = sl :: behind) (ho : sl.op = .finish)
    (hp : bk.pass = some ⟨.fine, v⟩) :
    bk.fineVerify true gate = some ((bk.fineDone sl ⟨.fine, v⟩).blockClosed sl) := by
  simp [Bank.fineVerify, hq, hp, ho]

theorem Bank.fineVerify_failed_last (hq : bk.queue = sl :: behind) (ho : sl.op = .finish ∨ ∃ w, sl.op = .program w)
    (hp : bk.pass = some ⟨.fine, v⟩) (hn : 14 ≤ bk.passPulses) :
    bk.fineVerify false gate = some (bk.failHead sl ⟨.programFail, some .fine, some v⟩) := by
  rcases ho with ho | ⟨w, ho⟩ <;> simp [Bank.fineVerify, hq, hp, ho, fineLimit, hn, Bank.failPass]

theorem Bank.fineVerify_failed_before (hq : bk.queue = sl :: behind) (ho : sl.op = .finish ∨ ∃ w, sl.op = .program w)
    (hp : bk.pass = some ⟨.fine, v⟩) (hn : bk.passPulses < 14) :
    bk.fineVerify false gate = some (bk.boundary sl gate) := by
  rcases ho with ho | ⟨w, ho⟩ <;> simp [Bank.fineVerify, hq, hp, ho, fineLimit, Nat.not_le_of_lt hn]

end Passes

/-- Settles O27, by the verify's result, the word line and the pulses given. -/
theorem coarseVerifyEndSettlesThePass : Obligations.CoarseVerifyEndSettlesThePass := by
  intro s b sl behind w v pages hr hs hq ho hp hl bk gate marked
  refine ⟨?opens, fun hw => exec_coarseVerifyEnd hr hs (Bank.coarseVerify_passed_above hq ho hp hw),
    fun hn => exec_coarseVerifyEnd hr hs (Bank.coarseVerify_failed_last hq ho hp hn),
    fun hn => exec_coarseVerifyEnd hr hs (Bank.coarseVerify_failed_before hq ho hp hn)⟩
  case opens =>
    rintro rfl
    rw [exec_coarseVerifyEnd hr hs (Bank.coarseVerify_passed_zero hq ho hp),
      Bank.programDone_of_latch (bk := bk.passDone sl ⟨.coarse, v⟩) hl]
    rfl

/-- Settles O28, by the verify's result, the operation, its word line and the pulses given. -/
theorem fineVerifyEndSettlesThePass : Obligations.FineVerifyEndSettlesThePass := by
  intro s b sl behind v ps hr hs hq hp hps bk gate placed closed
  refine ⟨?below, ?first, ?second, ?finish,
    fun ho => ⟨fun hn => exec_fineVerifyEnd hr hs (Bank.fineVerify_failed_last hq ho hp hn),
      fun hn => exec_fineVerifyEnd hr hs (Bank.fineVerify_failed_before hq ho hp hn)⟩⟩
  case below =>
    intro w pages ho hw hv hl
    rw [exec_fineVerifyEnd hr hs (Bank.fineVerify_passed_below hq ho hp hw),
      Bank.programDone_of_latch (bk := bk.fineDone sl ⟨.fine, v⟩) hl,
      Bank.fineDone_of_pages (Bank.finePages_program_other ho hv hps)]
  case first =>
    intro ho hv
    rw [exec_fineVerifyEnd hr hs (Bank.fineVerify_passed_first hq ho hp hv),
      Bank.fineDone_of_pages (Bank.finePages_program_other ho (Nat.ne_of_lt hv) hps)]
    rfl
  case second =>
    rintro pages ho rfl hl
    rw [exec_fineVerifyEnd hr hs (Bank.fineVerify_passed_second hq ho hp),
      Bank.fineDone_of_pages (Bank.finePages_program_own ho hl), Bank.blockClosed_eq]
  case finish =>
    intro ho
    rw [exec_fineVerifyEnd hr hs (Bank.fineVerify_passed_finish hq ho hp),
      Bank.fineDone_of_pages (Bank.finePages_finish ho hps v), Bank.blockClosed_eq]

section MapPages

variable {bk : Bank} {sl : Slot} {behind : List Slot} {failure : Failure} {cur : MapBlock}

theorem Bank.currentMapBlock_some (h : bk.mapBlock = some cur) : bk.currentMapBlock = cur := by
  simp [Bank.currentMapBlock, h]

theorem Bank.otherMapBlock_some (h : bk.mapBlock = some cur) : bk.otherMapBlock = if cur = .a then .b else .a := by
  cases cur <;> simp [Bank.otherMapBlock, h]

section Recording

variable (hq : bk.queue = sl :: behind) (hs : sl.state = .recording) (hf : sl.failure = some failure)

include hq hs hf

theorem Bank.endRecording_of_failure (f : RecordFlags) :
    bk.endRecording f = ⟨{ bk with queue := behind }, [sl.finish failure.outcome f]⟩ := by
  simp [Bank.endRecording, hq, hs, Slot.finishRecording, hf]

/-- The bank that becomes DEGRADED ends its RECORDING head. -/
theorem Bank.degrade_of_failure :
    bk.degrade = ⟨{ bk with internal := none, mapState := .degraded, queue := behind },
      [sl.finish failure.outcome mapDegradedFlag]⟩ := by
  unfold Bank.degrade
  exact Bank.endRecording_of_failure (by exact hq) hs hf _

/-- The bank whose map page has passed ends its RECORDING head. -/
theorem Bank.mapWritten_of_failure (block : MapBlock) (w : Nat) :
    bk.mapWritten block w =
      ⟨{ bk with
          array := (bk.array.setMarks (mapBlockNumber block) w allMarks).writePage (mapBlockNumber block) w .low
            (mapPage (nextSeq bk.mapSeq) bk.retired)
          internal := none, mapSeq := nextSeq bk.mapSeq, mapBlock := some block, nextMapPage := w + 1
          mapFailureRun := 0, queue := behind }, [sl.finish failure.outcome mapWrittenFlag]⟩ := by
  unfold Bank.mapWritten
  exact Bank.endRecording_of_failure (by exact hq) hs hf _

/-- The third failed write in a row of a MAP_UPDATE. -/
theorem Bank.updateFailed_degraded (hn : 2 ≤ bk.mapFailureRun) : bk.updateFailed =
    ⟨{ bk with
        internal := none, nextMapPage := bk.nextMapPage + 1, mapFailureRun := bk.mapFailureRun + 1
        mapState := .degraded, queue := behind }, [sl.finish failure.outcome mapDegradedFlag]⟩ := by
  unfold Bank.updateFailed
  exact (if_pos (Nat.succ_le_succ hn)).trans (Bank.degrade_of_failure (by exact hq) hs hf)

/-- The third failed write in a row of a MAP_REWRITE. -/
theorem Bank.rewriteFailed_degraded (w : Nat) (hn : 2 ≤ bk.mapFailureRun) : bk.rewriteFailed w =
    ⟨{ bk with
        internal := none, mapFailureRun := bk.mapFailureRun + 1, mapState := .degraded, queue := behind },
      [sl.finish failure.outcome mapDegradedFlag]⟩ := by
  unfold Bank.rewriteFailed
  exact (if_pos (Nat.succ_le_succ hn)).trans (Bank.degrade_of_failure (by exact hq) hs hf)

end Recording

theorem Bank.updateFailed_next (hc : bk.mapBlock = some cur) (hn : bk.mapFailureRun < 2) (hw : bk.nextMapPage + 1 < 64) :
    bk.updateFailed =
      ⟨{ bk with
          nextMapPage := bk.nextMapPage + 1, mapFailureRun := bk.mapFailureRun + 1
          array := bk.array.setMarks (mapBlockNumber cur) (bk.nextMapPage + 1)
            { bk.array.marksOf (mapBlockNumber cur) (bk.nextMapPage + 1) with coarseBegun := true }
          internal := some ⟨.mapUpdate 1, true⟩, step := some (.pulse .mapPage) }, []⟩ := by
  have notThird : ¬ mapFailureLimit ≤ bk.mapFailureRun + 1 := Nat.not_le_of_lt (Nat.succ_lt_succ hn)
  simp [Bank.updateFailed, notThird, mapPages, hw, Bank.currentMapBlock, hc, Bank.firstMapPulse, Turn.of]

theorem Bank.updateFailed_full (hn : bk.mapFailureRun < 2) (hw : 64 ≤ bk.nextMapPage + 1) :
    bk.updateFailed =
      ⟨{ bk with
          nextMapPage := bk.nextMapPage + 1, mapFailureRun := bk.mapFailureRun + 1
          internal := some ⟨.rewriteErase 0, false⟩ }, []⟩ := by
  have notThird : ¬ mapFailureLimit ≤ bk.mapFailureRun + 1 := Nat.not_le_of_lt (Nat.succ_lt_succ hn)
  simp [Bank.updateFailed, notThird, mapPages, Nat.not_lt_of_le hw, Turn.of]

theorem Bank.rewriteFailed_next (hc : bk.mapBlock = some cur) (w : Nat) (hn : bk.mapFailureRun < 2) :
    bk.rewriteFailed w =
      ⟨{ bk with
          mapFailureRun := bk.mapFailureRun + 1
          array := bk.array.setMarks (mapBlockNumber (if cur = .a then .b else .a)) (w + 1)
            { bk.array.marksOf (mapBlockNumber (if cur = .a then .b else .a)) (w + 1) with coarseBegun := true }
          internal := some ⟨.rewritePage (w + 1) 1, true⟩, step := some (.pulse .mapPage) }, []⟩ := by
  have notThird : ¬ mapFailureLimit ≤ bk.mapFailureRun + 1 := Nat.not_le_of_lt (Nat.succ_lt_succ hn)
  rw [← Bank.otherMapBlock_some hc]
  simp [Bank.rewriteFailed, notThird, Bank.otherMapBlock, Bank.firstMapPulse, Turn.of]

section Update

variable {n : Nat} {begun : Bool} (hi : bk.internal = some ⟨.mapUpdate n, begun⟩)

include hi

theorem Bank.mapPageVerify_update_passed (hc : bk.mapBlock = some cur) :
    bk.mapPageVerify true = some (({ bk with step := none } : Bank).mapWritten cur bk.nextMapPage) := by
  rw [← Bank.currentMapBlock_some hc]
  simp [Bank.mapPageVerify, hi, Bank.currentMapBlock]

theorem Bank.mapPageVerify_update_again (hn : n < 6) :
    bk.mapPageVerify false = some (bk.nextMapPulse (.mapUpdate (n + 1)) .mapPage) := by
  simp [Bank.mapPageVerify, hi, mapPageLimit, Nat.not_le_of_lt hn, Bank.nextMapPulse]

theorem Bank.mapPageVerify_update_failed (hn : 6 ≤ n) :
    bk.mapPageVerify false = some ({ bk with step := none } : Bank).updateFailed := by
  simp [Bank.mapPageVerify, hi, mapPageLimit, hn]

end Update

section Rewrite

variable {w n : Nat} {begun : Bool} (hi : bk.internal = some ⟨.rewritePage w n, begun⟩)

include hi

theorem Bank.mapPageVerify_rewrite_passed (hc : bk.mapBlock = some cur) :
    bk.mapPageVerify true =
      some (({ bk with step := none } : Bank).mapWritten (if cur = .a then .b else .a) w) := by
  rw [← Bank.otherMapBlock_some hc]
  simp [Bank.mapPageVerify, hi, Bank.otherMapBlock]

theorem Bank.mapPageVerify_rewrite_again (hn : n < 6) :
    bk.mapPageVerify false = some (bk.nextMapPulse (.rewritePage w (n + 1)) .mapPage) := by
  simp [Bank.mapPageVerify, hi, mapPageLimit, Nat.not_le_of_lt hn, Bank.nextMapPulse]

theorem Bank.mapPageVerify_rewrite_failed (hn : 6 ≤ n) :
    bk.mapPageVerify false = some (({ bk with step := none } : Bank).rewriteFailed w) := by
  simp [Bank.mapPageVerify, hi, mapPageLimit, hn]

end Rewrite

end MapPages

/-- Settles O33, by the internal operation, the verify's result, the pulses given and the failure run. -/
theorem mapPageVerifyEndSettlesTheWrite : Obligations.MapPageVerifyEndSettlesTheWrite := by
  intro s b sl behind failure cur begun hr hs hq hrec hf hcur bk other seq written tries degraded further
  let ended : Bank := { bk with step := none }
  refine ⟨fun n hi => ⟨?uPassed, fun hn => exec_mapPageVerifyEnd hr hs (Bank.mapPageVerify_update_again hi hn),
    fun hn hrun => ?uDegraded, fun hn hrun hnext => ?uNext, fun hn hrun hnext => ?uFull⟩,
    fun w n hi => ⟨?rPassed, fun hn => exec_mapPageVerifyEnd hr hs (Bank.mapPageVerify_rewrite_again hi hn),
      fun hn hrun => ?rDegraded, fun hn hrun => ?rNext⟩⟩
  case uPassed =>
    rw [exec_mapPageVerifyEnd hr hs (Bank.mapPageVerify_update_passed hi hcur),
      Bank.mapWritten_of_failure (bk := ended) hq hrec hf]
    rfl
  case uDegraded =>
    rw [exec_mapPageVerifyEnd hr hs (Bank.mapPageVerify_update_failed hi hn),
      Bank.updateFailed_degraded (bk := ended) hq hrec hf hrun]
  case uNext =>
    rw [exec_mapPageVerifyEnd hr hs (Bank.mapPageVerify_update_failed hi hn),
      Bank.updateFailed_next (bk := ended) hcur hrun hnext]
  case uFull =>
    rw [exec_mapPageVerifyEnd hr hs (Bank.mapPageVerify_update_failed hi hn),
      Bank.updateFailed_full (bk := ended) hrun hnext]
  case rPassed =>
    rw [exec_mapPageVerifyEnd hr hs (Bank.mapPageVerify_rewrite_passed hi hcur),
      Bank.mapWritten_of_failure (bk := ended) hq hrec hf]
    rfl
  case rDegraded =>
    rw [exec_mapPageVerifyEnd hr hs (Bank.mapPageVerify_rewrite_failed hi hn),
      Bank.rewriteFailed_degraded (bk := ended) hq hrec hf w hrun]
  case rNext =>
    rw [exec_mapPageVerifyEnd hr hs (Bank.mapPageVerify_rewrite_failed hi hn),
      Bank.rewriteFailed_next (bk := ended) hcur w hrun]

end Sys2Proof.Machine

/-! # Canonical stores

Every change of a bank keeps its array and the pages it holds in canonical form, and no command but a step's own taking of
it touches the queue of commands. -/

namespace Sys2Proof.Machine

/-! ### The stores of a bank -/

/-- A staging slot holds a canonical page, and 0xFF throughout where nothing has been loaded (R49). -/
def StagingSlot.Stored (x : StagingSlot) : Prop :=
  pageWf x.page = true ∧ (x.loaded = false → x.page = [])

/-- Everything that a bank keeps bytes or marks in is in canonical form. -/
structure StoresWf (array : ArrayBank) (staging : Trio StagingSlot) (latch : Option (Trio Page))
    (pendingSlot : Option PendingSlot) (senseLatch : Option SenseResult) (output : Page) : Prop where
  array : array.canonical = true
  staging : ∀ p, (staging.get p).Stored
  latch : ∀ pages, latch = some pages → trioWf pages = true
  pendingSlot : ∀ ps, pendingSlot = some ps → trioWf ps.pages = true
  senseLatch : ∀ r, senseLatch = some r → pageWf r.page = true
  output : pageWf output = true

/-- A bank's stores are in canonical form. The other fields of the bank have no part in it: what changes those alone keeps
it as it stands. -/
abbrev Bank.Stored (bk : Bank) : Prop :=
  StoresWf bk.array bk.staging bk.latch bk.pendingSlot bk.senseLatch bk.output.page

theorem Trio.forall_get {α : Type} {t : Trio α} {P : α → Prop} : (∀ p, P (t.get p)) ↔ P t.low ∧ P t.middle ∧ P t.high :=
  ⟨fun h => ⟨h .low, h .middle, h .high⟩, fun ⟨low, middle, high⟩ p => by cases p <;> assumption⟩

theorem Trio.get_set {α : Type} (t : Trio α) (p q : Position) (x : α) :
    (t.set p x).get q = if q = p then x else t.get q := by
  cases p <;> cases q <;> rfl

theorem StagingSlot.stored_iff {x : StagingSlot} :
    x.Stored ↔ pageWf x.page = true ∧ (x.loaded || decide (x.page = [])) = true := by
  cases h : x.loaded <;> simp [StagingSlot.Stored, h]

theorem Bank.pagesWf_eq (bk : Bank) : bk.pagesWf =
    (trioWf (bk.staging.map StagingSlot.page) &&
      [bk.staging.low, bk.staging.middle, bk.staging.high].all (fun x => x.loaded || decide (x.page = [])) &&
      bk.latch.all trioWf && bk.pendingSlot.all (fun ps => trioWf ps.pages) &&
      bk.senseLatch.all (fun r => pageWf r.page) && pageWf bk.output.page) := by
  unfold Bank.pagesWf
  cases bk.latch <;> cases bk.pendingSlot <;> cases bk.senseLatch <;> rfl

theorem Bank.stored_iff {bk : Bank} : bk.Stored ↔ bk.array.canonical = true ∧ bk.pagesWf = true := by
  have staging : (∀ p, (bk.staging.get p).Stored) ↔ trioWf (bk.staging.map StagingSlot.page) = true ∧
      [bk.staging.low, bk.staging.middle, bk.staging.high].all (fun x => x.loaded || decide (x.page = [])) = true := by
    rw [Trio.forall_get (P := StagingSlot.Stored), trioWf_iff]
    simp only [StagingSlot.stored_iff, Trio.map, List.all_cons, List.all_nil, Bool.and_eq_true, Bool.and_true]
    tauto
  simp only [Bank.pagesWf_eq, Bool.and_eq_true, Option.all_eq_true, ← staging]
  exact ⟨fun ⟨a, s, l, p, r, o⟩ => ⟨a, ⟨⟨⟨s, l⟩, p⟩, r⟩, o⟩, fun ⟨a, ⟨⟨⟨s, l⟩, p⟩, r⟩, o⟩ => ⟨a, s, l, p, r, o⟩⟩

/-- An empty store holds nothing that could be out of form. -/
theorem holds_of_none {α : Type} {P : α → Prop} : ∀ x, none = some x → P x := nofun

theorem pageWf_nil : pageWf [] = true := by decide

/-- A bank as a die reset leaves it holds canonical stores where its array does. -/
theorem Bank.stored_afterReset {a : ArrayBank} (h : a.canonical = true) : (Bank.afterReset a).Stored where
  array := h
  staging := fun p => by cases p <;> exact ⟨pageWf_nil, fun _ => rfl⟩
  latch := holds_of_none
  pendingSlot := holds_of_none
  senseLatch := holds_of_none
  output := pageWf_nil

namespace StoresWf

variable {bk : Bank}

/-! ### Reads -/

theorem completeRead (h : bk.Stored) {page : Page} (hp : pageWf page = true) (sl : Slot) (o : OpOutcome)
    (f : RecordFlags) : (bk.completeRead sl page o f).bank.Stored :=
  { h with output := hp }

theorem pendingPage (h : bk.Stored) (p : Position) : pageWf (bk.pendingPage p) = true := by
  unfold Bank.pendingPage
  split
  · decide
  · rename_i ps hps
    obtain ⟨low, middle, high⟩ := trioWf_iff.1 (h.pendingSlot ps hps)
    cases p <;> assumption

theorem startPoint (h : bk.Stored) (sl : Slot) : (bk.startPoint sl).bank.Stored := by
  unfold Bank.startPoint
  split <;> exact h

theorem servePending (h : bk.Stored) {sl : Slot} {u : Turn} (hu : bk.servePending sl = some u) : u.bank.Stored := by
  unfold Bank.servePending at hu
  split at hu
  · split at hu
    · cases hu
      exact h.completeRead (h.pendingPage _) ..
    · cases hu
  all_goals cases hu

theorem completeWaiting (h : bk.Stored) {sl : Slot} {u : Turn} (hu : bk.completeWaiting sl = some u) :
    u.bank.Stored := by
  unfold Bank.completeWaiting at hu
  split at hu
  · cases hu
  · rename_i r hr
    split at hu
    · cases hu
      exact { h with senseLatch := holds_of_none, output := h.senseLatch r hr }
    · cases hu

theorem advanceStep (h : bk.Stored) {u : Turn} (hu : bk.advanceStep = some u) : u.bank.Stored := by
  obtain ⟨-, sl, behind, -, hc⟩ := Bank.advanceStep_cases hu
  rcases hc with ⟨-, rfl⟩ | ⟨-, hu⟩ | ⟨-, hu⟩ | ⟨-, r, -, hu⟩ | ⟨-, -, -, r, -, rfl⟩
  · exact h.startPoint sl
  · exact h.servePending hu
  · exact h.completeWaiting hu
  · exact h.servePending hu
  · exact h.startPoint r

theorem advance {t : Turn} (h : t.bank.Stored) (n : Nat) : (Bank.advance n t).bank.Stored := by
  induction n generalizing t with
  | zero => exact h
  | succ n ih =>
    unfold Bank.advance
    split
    · exact h
    · rename_i u hu
      exact ih (t := ⟨u.bank, _⟩) (h.advanceStep (u := u) hu)

theorem readSensed (h : bk.Stored) {cells : Option Page} (hc : cellsFit cells = true) {u : Turn}
    (hu : bk.readSensed cells = some u) : u.bank.Stored := by
  unfold Bank.readSensed at hu
  split at hu
  · cases hu
  · rename_i sl _
    split at hu
    · rename_i w p _
      have page := ArrayBank.sensedPage_wf h.array sl.block w p hc
      dsimp only at hu
      split at hu
      · cases hu
        exact { h with senseLatch := holds_of_none, output := page }
      · split at hu
        · cases hu
          exact { h with senseLatch := holds_of_none }
        · cases hu
          exact { h with senseLatch := fun r hr => by cases hr; exact page }
    all_goals cases hu

/-! ### Pulses -/

theorem setMarks (h : bk.Stored) (block w : Nat) (m : PassMarks) :
    ({ bk with array := bk.array.setMarks block w m } : Bank).Stored :=
  { h with array := ArrayBank.setMarks_canonical h.array block w m }

theorem setEraseComplete (h : bk.Stored) (block : Nat) (present : Bool) :
    ({ bk with array := bk.array.setEraseComplete block present } : Bank).Stored :=
  { h with array := ArrayBank.setEraseComplete_canonical h.array block present }

theorem stagedPages (h : bk.Stored) : trioWf (bk.staging.map StagingSlot.page) = true :=
  trioWf_iff.2 ⟨(h.staging .low).1, (h.staging .middle).1, (h.staging .high).1⟩

theorem firstCoarsePulse (h : bk.Stored) (sl : Slot) (w : Nat) : (bk.firstCoarsePulse sl w).Stored :=
  { h with
    array := ArrayBank.writeWordLine_canonical (ArrayBank.setMarks_canonical h.array ..) ..
    staging := (Bank.stored_afterReset h.array).staging
    latch := fun pages hp => by cases hp; exact h.stagedPages }

theorem passPulse (h : bk.Stored) (sl : Slot) (p : Pass) : (bk.passPulse sl p).Stored := by
  refine { h with array := ?_ }
  unfold Bank.passPulse
  dsimp only
  split
  · exact ArrayBank.setMarks_canonical h.array ..
  · exact h.array

theorem erasePulse (h : bk.Stored) (sl : Slot) : (bk.erasePulse sl).Stored := by
  by_cases first : sl.pulses = 0
  · rw [Bank.erasePulse_first first]
    refine { h with array := ArrayBank.setEraseComplete_canonical h.array .., pendingSlot := fun ps hps => ?_ }
    dsimp only at hps
    split at hps
    · cases hps
    · exact h.pendingSlot ps hps
  · rw [Bank.erasePulse_again (Nat.pos_of_ne_zero first)]
    exact h

theorem nextPulse (h : bk.Stored) (sl : Slot) : (bk.nextPulse sl).Stored := by
  unfold Bank.nextPulse
  split
  · exact h
  · split
    · exact h.firstCoarsePulse sl _
    · exact h.passPulse sl _
  · split
    · exact h
    · exact h.passPulse sl _
  · exact h.erasePulse sl

theorem beginHost (h : bk.Stored) (sl : Slot) : (bk.beginHost sl).Stored := by
  unfold Bank.beginHost
  split
  · exact h
  · split
    · exact h
    · exact h.firstCoarsePulse sl _
  · split
    · exact h
    · exact StoresWf.passPulse (bk := { bk with passPulses := 0 }) h sl _
  · exact h.erasePulse sl

theorem firstMapPulse (h : bk.Stored) (block : MapBlock) (w : Nat) (op : InternalOp) :
    (bk.firstMapPulse block w op).Stored :=
  h.setMarks ..

theorem beginInternal (h : bk.Stored) (op : InternalOp) : (bk.beginInternal op).Stored := by
  unfold Bank.beginInternal
  split
  · exact h
  · exact h.firstMapPulse ..
  · exact h.setEraseComplete ..
  · exact h.firstMapPulse ..

theorem proceed (h : bk.Stored) : bk.proceed.Stored := by
  unfold Bank.proceed
  split
  · exact h.beginInternal _
  · split
    · exact h
    · split
      · exact h.beginHost _
      · exact h.nextPulse _
      · split
        · exact h
        · exact h.nextPulse _
      all_goals exact h

theorem noteWaiting (h : bk.Stored) : bk.noteWaiting.Stored := by
  unfold Bank.noteWaiting
  (repeat' split) <;> exact h

/-! ### Ends and boundaries -/

theorem dropStores (h : bk.Stored) : bk.dropStores.Stored :=
  { h with latch := holds_of_none, pendingSlot := holds_of_none }

theorem stopStores (h : bk.Stored) (sl : Slot) : (bk.stopStores sl).Stored := by
  unfold Bank.stopStores
  split
  · exact h
  · split
    · exact h.dropStores
    · exact h
  · split
    · exact h.dropStores
    · exact h
  · exact h

theorem boundary (h : bk.Stored) (sl : Slot) (gate : Bool) : (bk.boundary sl gate).bank.Stored := by
  unfold Bank.boundary
  split
  · exact StoresWf.stopStores (bk := bk.atRest) h sl
  · split
    · exact h
    · exact StoresWf.nextPulse (bk := bk.atRest) h sl

theorem latchPages (h : bk.Stored) : trioWf (bk.latch.getD blankPages) = true := by
  cases hl : bk.latch with
  | none => decide
  | some pages => exact h.latch pages hl

theorem programDone (h : bk.Stored) (sl : Slot) (w : Nat) : (bk.programDone sl w).bank.Stored :=
  { h with latch := holds_of_none, pendingSlot := fun ps hps => by cases hps; exact h.latchPages }

theorem blockClosed (h : bk.Stored) (sl : Slot) : (bk.blockClosed sl).bank.Stored :=
  h.dropStores

theorem endRecording (h : bk.Stored) (f : RecordFlags) : (bk.endRecording f).bank.Stored := by
  unfold Bank.endRecording
  (repeat' split) <;> exact h

theorem handOff (h : bk.Stored) (sl : Slot) : (bk.handOff sl).bank.Stored := by
  unfold Bank.handOff
  split
  · exact h.endRecording _
  · dsimp only
    split
    · exact endRecording (by exact h) _
    · split <;> exact h

theorem failHead (h : bk.Stored) (sl : Slot) (failure : Failure) : (bk.failHead sl failure).bank.Stored := by
  have left : (bk.atRest.failStores sl).Stored := by
    unfold Bank.failStores
    split
    · exact h
    · exact dropStores (bk := bk.atRest) h
    · exact dropStores (bk := bk.atRest) h
    · exact h
  unfold Bank.failHead
  exact handOff (by exact left) sl

theorem passDone (h : bk.Stored) (sl : Slot) (p : Pass) : (bk.passDone sl p).Stored :=
  h.setMarks ..

theorem fineDone (h : bk.Stored) (sl : Slot) (p : Pass) : (bk.fineDone sl p).Stored :=
  { h with array := ArrayBank.writeWordLine_canonical (h.passDone sl p).array .. }

theorem coarseVerify (h : bk.Stored) {passed gate : Bool} {u : Turn} (hu : bk.coarseVerify passed gate = some u) :
    u.bank.Stored := by
  unfold Bank.coarseVerify at hu
  split at hu
  · split at hu
    · split at hu
      · dsimp only at hu
        split at hu <;> cases hu
        · exact (h.passDone _ _).programDone ..
        · exact boundary (bk := (bk.passDone _ _).nextPass _) (h.passDone _ _) ..
      · split at hu <;> cases hu
        · exact h.failHead ..
        · exact h.boundary ..
    · cases hu
  · cases hu

theorem fineVerify (h : bk.Stored) {passed gate : Bool} {u : Turn} (hu : bk.fineVerify passed gate = some u) :
    u.bank.Stored := by
  unfold Bank.fineVerify at hu
  split at hu
  · rename_i sl _ p _ _
    have done := h.fineDone sl p
    split at hu
    · split at hu
      · dsimp only at hu
        split at hu
        · cases hu
          exact done.programDone ..
        · split at hu <;> cases hu
          · exact boundary (bk := (bk.fineDone sl p).nextPass _) done ..
          · exact done.blockClosed sl
      · split at hu <;> cases hu
        · exact h.failHead ..
        · exact h.boundary ..
    · split at hu
      · cases hu
        exact done.blockClosed sl
      · split at hu <;> cases hu
        · exact h.failHead ..
        · exact h.boundary ..
    · cases hu
  · cases hu

theorem eraseVerify (h : bk.Stored) {passed gate : Bool} {u : Turn} (hu : bk.eraseVerify passed gate = some u) :
    u.bank.Stored := by
  unfold Bank.eraseVerify at hu
  split at hu
  · cases hu
  · split at hu
    · split at hu
      · cases hu
        exact h.setEraseComplete ..
      · split at hu
        · cases hu
          exact h.failHead ..
        · split at hu <;> cases hu
          · exact h
          · exact h.boundary ..
    all_goals cases hu

theorem blankChecked (h : bk.Stored) {gate : Bool} {u : Turn} (hu : bk.blankChecked gate = some u) : u.bank.Stored := by
  have emptied : ({ bk with senseLatch := none } : Bank).Stored := { h with senseLatch := holds_of_none }
  unfold Bank.blankChecked at hu
  split at hu
  · cases hu
  · split at hu
    · dsimp only at hu
      split at hu <;> cases hu
      · exact emptied.boundary ..
      · exact emptied
    all_goals cases hu

theorem stopSlot (h : bk.Stored) (sl : Slot) (o : OpOutcome) : (bk.stopSlot sl o).bank.Stored := by
  unfold Bank.stopSlot
  split
  · exact h
  · exact h
  · exact h.stopStores sl
  · exact h
  · exact { h with senseLatch := holds_of_none }
  all_goals exact h

theorem pulseEnded (h : bk.Stored) (use : PulseUse) : (bk.pulseEnded use).Stored := by
  rcases bk.pulseEnded_array use with ⟨-, ha⟩ | ⟨block, -, ha⟩
  · exact { h with array := ha ▸ h.array }
  · exact { h with array := ha ▸ ArrayBank.clearBlock_canonical h.array block }

theorem cutStep (h : bk.Stored) (cut : Nat) : (bk.cutStep cut).Stored := by
  refine { h with array := ?_ }
  cases hc : bk.erasePulseCut with
  | none => exact Bank.cutStep_array_of_none hc cut ▸ h.array
  | some block => exact Bank.cutStep_array_of_some hc cut ▸ ArrayBank.cutErase_canonical h.array block cut

/-! ### The map unit -/

theorem mapSensed (h : bk.Stored) {cells : Option Page} {u : Turn} (hu : bk.mapSensed cells = some u) :
    u.bank.Stored := by
  unfold Bank.mapSensed at hu
  split at hu
  · dsimp only at hu
    split at hu
    · cases hu
      exact { h with senseLatch := holds_of_none }
    · cases hu
      unfold Bank.settleMap
      split <;> exact { h with senseLatch := holds_of_none }
  · cases hu

theorem degrade (h : bk.Stored) : bk.degrade.bank.Stored :=
  endRecording (bk := { bk with internal := none, mapState := .degraded }) h _

theorem mapWritten (h : bk.Stored) (block : MapBlock) (w : Nat) : (bk.mapWritten block w).bank.Stored := by
  unfold Bank.mapWritten
  refine endRecording ?_ _
  exact { h with array := ArrayBank.writePage_canonical (ArrayBank.setMarks_canonical h.array ..) .. }

theorem updateFailed (h : bk.Stored) : bk.updateFailed.bank.Stored := by
  unfold Bank.updateFailed
  dsimp only
  split
  · exact degrade h
  · split
    · exact h.setMarks ..
    · exact h

theorem rewriteFailed (h : bk.Stored) (w : Nat) : (bk.rewriteFailed w).bank.Stored := by
  unfold Bank.rewriteFailed
  dsimp only
  split
  · exact degrade h
  · exact h.setMarks ..

theorem mapPageVerify (h : bk.Stored) {passed : Bool} {u : Turn} (hu : bk.mapPageVerify passed = some u) :
    u.bank.Stored := by
  have ended : ({ bk with step := none } : Bank).Stored := h
  unfold Bank.mapPageVerify at hu
  dsimp only at hu
  split at hu
  · split at hu
    · cases hu
      exact ended.mapWritten ..
    · split at hu <;> cases hu
      · exact ended.updateFailed
      · exact ended
  · split at hu
    · cases hu
      exact ended.mapWritten ..
    · split at hu <;> cases hu
      · exact ended.rewriteFailed _
      · exact ended
  · cases hu

theorem mapEraseVerify (h : bk.Stored) {passed : Bool} {u : Turn} (hu : bk.mapEraseVerify passed = some u) :
    u.bank.Stored := by
  unfold Bank.mapEraseVerify at hu
  dsimp only at hu
  split at hu
  · split at hu
    · cases hu
      exact { h with array := ArrayBank.setMarks_canonical (ArrayBank.setEraseComplete_canonical h.array ..) .. }
    · split at hu <;> cases hu
      · exact degrade h
      · exact h
  · cases hu

/-! ### The staging buffer (R50) -/

/-- Bytes loaded within the page leave the staging slot canonical, and loaded. -/
theorem loadStaging (h : bk.Stored) (p : Position) {offset : Nat} {data : List Byte}
    (hb : offset + data.length ≤ pageBytes) : (bk.loadStaging p offset data).Stored := by
  refine { h with staging := fun q => ?_ }
  show ((bk.staging.set p _).get q).Stored
  rw [Trio.get_set]
  split
  · exact ⟨pageWrite_pageWf (h.staging p).1 hb, nofun⟩
  · exact h.staging q

end StoresWf

/-! ### Operands of LOAD_STAGING (R50, R171) -/

theorem loadParams_length {params : List Byte} {l : LoadParams} (h : loadParams params = some l) :
    l.data.length = l.length := by
  unfold loadParams at h
  split at h
  · split at h
    · cases h; assumption
    · cases h
  · cases h

theorem transferInRange_iff {offset length : Nat} : transferInRange offset length = true ↔
    1 ≤ length ∧ length ≤ transferLimit ∧ offset + length ≤ pageBytes := by
  simp [transferInRange, and_assoc]

/-! ### The stores of a state -/

/-- Both banks' stores are in canonical form. -/
def State.Stored (s : State) : Prop := ∀ b, (s.bank b).Stored

theorem State.canonical_iff {s : State} : s.canonical = true ↔ s.Stored ∧ s.pending.all Instr.wf = true := by
  have banks : s.Stored ↔ s.bank0.Stored ∧ s.bank1.Stored :=
    ⟨fun h => ⟨h .zero, h .one⟩, fun ⟨h0, h1⟩ b => by cases b <;> assumption⟩
  simp only [banks, Bank.stored_iff, State.canonical, Bool.and_eq_true]
  tauto

/-- A change keeps the stores canonical and leaves the queue of commands alone. -/
structure State.KeepsStores (s t : State) : Prop where
  stored : s.Stored → t.Stored
  pending : t.pending = s.pending

namespace State.KeepsStores

variable {s t u : State}

theorem refl (s : State) : s.KeepsStores s := ⟨id, rfl⟩

theorem trans (h : s.KeepsStores t) (k : t.KeepsStores u) : s.KeepsStores u :=
  ⟨k.stored ∘ h.stored, k.pending.trans h.pending⟩

/-- What changes both banks, each to one with canonical stores. -/
theorem of_banks (h : ∀ b, (s.bank b).Stored → (t.bank b).Stored) (hp : t.pending = s.pending) : s.KeepsStores t :=
  ⟨fun hs b => h b (hs b), hp⟩

/-- What leaves both banks and the queue of commands. -/
theorem of_same (h0 : t.bank0 = s.bank0) (h1 : t.bank1 = s.bank1) (hp : t.pending = s.pending) : s.KeepsStores t := by
  refine of_banks (fun b h => ?_) hp
  have same : t.bank b = s.bank b := by cases b <;> assumption
  rwa [same]

theorem setBank {b : BankId} {bk : Bank} (h : (s.bank b).Stored → bk.Stored) : s.KeepsStores (s.setBank b bk) := by
  refine of_banks (fun b' hb => ?_) (State.setBank_pending s b bk)
  cases b <;> cases b'
  exacts [h hb, hb, hb, h hb]

theorem withTurn {b : BankId} {v : Turn} (h : (s.bank b).Stored → v.bank.Stored) : s.KeepsStores (s.withTurn b v) :=
  (setBank h).trans (of_same rfl rfl rfl)

/-! ### Settling -/

theorem advanceBanks (s : State) : s.KeepsStores s.advanceBanks := by
  have bank : ∀ (x : State) (b : BankId), x.KeepsStores (x.advanceBank b) :=
    fun x b => withTurn fun h => StoresWf.advance h _
  exact (bank s .zero).trans (bank _ .one)

theorem tryBanks (s : State) : s.KeepsStores s.tryBanks := by
  have bank : ∀ (x : State) (b : BankId), x.KeepsStores (x.tryBank b) := by
    intro x b
    rcases x.tryBank_cases b with h | ⟨-, -, h⟩ <;> rw [h]
    · exact refl x
    · exact setBank StoresWf.proceed
  exact (bank s .zero).trans (bank _ .one)

theorem soloClaim (s : State) : s.KeepsStores s.soloClaim := of_same (by simp) (by simp) (by simp)

theorem noteWaiting (s : State) : s.KeepsStores s.noteWaiting :=
  of_banks (fun b h => by cases b <;> exact h.noteWaiting) rfl

theorem orderPauses (s : State) : s.KeepsStores s.orderPauses := by
  have bank : ∀ (x : State) (b : BankId), x.KeepsStores (x.orderPause b) := by
    intro x b
    unfold State.orderPause
    split
    · exact setBank id
    · exact refl x
  exact (bank s .zero).trans (bank _ .one)

theorem tendTransmit (s : State) : s.KeepsStores s.tendTransmit := of_same (by simp) (by simp) (by simp)

theorem settled (h : s.KeepsStores t) : s.KeepsStores t.settle :=
  h.trans <| (advanceBanks t).trans <| (tryBanks _).trans <| (soloClaim _).trans <| (tryBanks _).trans <|
    (noteWaiting _).trans <| (orderPauses _).trans (tendTransmit _)

theorem answered (h : s.KeepsStores t) (r : Response) : s.KeepsStores (t.answer r) := h.trans (of_same rfl rfl rfl)

theorem answer (s : State) (r : Response) : s.KeepsStores (s.answer r) := answered (refl s) r

theorem noteMap (s : State) (b : BankId) (before : MapState) : s.KeepsStores (s.noteMap b before) := by
  unfold State.noteMap
  dsimp only
  split
  · exact of_same rfl rfl rfl
  · exact refl s

theorem conclude {b : BankId} {v : Turn} (h : (s.bank b).Stored → v.bank.Stored) : s.KeepsStores (s.conclude b v) :=
  settled ((withTurn h).trans (noteMap _ _ _))

/-! ### The shared operations of the meanings -/

theorem transaction {act : State → State} (h : s.KeepsStores (act s)) (ht : s.transaction act = .next t) :
    s.KeepsStores t := by
  rcases s.transaction_cases act with ⟨-, hc⟩ | ⟨-, hc⟩ | ⟨-, -, -, hc⟩ <;> cases hc.symm.trans ht
  · exact h
  · exact refl s
  · exact of_same rfl rfl rfl

theorem happening {enabled : Bool} {r : Refusal} {act : State → State} (h : s.KeepsStores (act s))
    (ht : s.happening enabled r act = .next t) : s.KeepsStores t := by
  obtain ⟨-, -, rfl⟩ := State.happening_next ht
  exact h

theorem stepEnd {b : BankId} {ended : Step} {finish : Bank → Bool → Option Turn}
    (h : ∀ bk gate v, bk.Stored → finish bk gate = some v → v.bank.Stored) (ht : s.stepEnd b ended finish = .next t) :
    s.KeepsStores t := by
  obtain ⟨-, -, v, hv, rfl⟩ := State.stepEnd_next ht
  exact conclude fun hb => h _ _ v hb hv

/-! ### The host commands -/

section Host

variable {params : List Byte}

theorem enqueue (s : State) (tag : Byte) (b : BankId) (block : Nat) (op : HostOp) :
    s.KeepsStores (s.enqueue tag b block op) := by
  refine answered (settled ?_) _
  exact setBank fun h => h

theorem post (s : State) (p : Option Post) : s.KeepsStores (s.post p) := by
  unfold State.post
  split
  · exact answer s _
  · split
    · exact answer s _
    · split
      · exact answer s _
      · split
        · exact answer s _
        · split
          · exact answer s _
          · exact enqueue s ..

theorem postTransaction {p : Option Post} (ht : s.transaction (fun s => s.post p) = .next t) : s.KeepsStores t :=
  transaction (act := fun s => s.post p) (post s p) ht

theorem configure (ht : execConfigure params s = .next t) : s.KeepsStores t := by
  refine transaction ?_ ht
  split
  · exact answer s _
  · split
    · exact answer s _
    · split
      · exact answer s _
      · refine answered (settled ?_) _
        exact of_banks (fun b h => by cases b <;> exact h) rfl

theorem join (ht : execJoin params s = .next t) : s.KeepsStores t := by
  refine transaction ?_ ht
  (repeat' split) <;> exact of_same rfl rfl rfl

theorem leave (ht : execLeave params s = .next t) : s.KeepsStores t := by
  refine transaction ?_ ht
  (repeat' split) <;> exact of_same rfl rfl rfl

theorem requestStop (s : State) (b : BankId) (tag : Byte) : s.KeepsStores (s.requestStop b tag) := by
  unfold State.requestStop
  exact setBank fun h => h

theorem abort (ht : execAbort params s = .next t) : s.KeepsStores t := by
  have stop : ∀ b sl o, s.KeepsStores ((s.stopNow b sl o).answer .accepted) :=
    fun b sl o => answered (t := s.stopNow b sl o) (settled (withTurn fun h => h.stopSlot sl o)) _
  refine transaction ?_ ht
  split
  · exact answer s _
  · split
    · rename_i b sl _
      unfold State.abortSlot
      split
      iterate 5 exact stop b sl _
      · exact answered (requestStop s b _) _
      · exact answer s _
      · exact answer s _
    · split <;> exact answer s _

theorem loadStaging (ht : execLoadStaging params s = .next t) : s.KeepsStores t := by
  refine transaction ?_ ht
  split
  · exact answer s _
  · rename_i l hl
    split
    · rename_i b p _ _
      split
      · rename_i hr
        refine (setBank fun h => h.loadStaging p ?_).trans (answer _ _)
        rw [loadParams_length hl]
        exact (transferInRange_iff.1 hr).2.2
      · exact answer s _
    · exact answer s _

theorem fetchOutput (ht : execFetchOutput params s = .next t) : s.KeepsStores t := by
  refine transaction ?_ ht
  (repeat' split) <;> exact of_same rfl rfl rfl

theorem releaseOutput (ht : execReleaseOutput params s = .next t) : s.KeepsStores t := by
  refine transaction ?_ ht
  split
  · exact answer s _
  · split
    · exact answer s _
    · split
      · exact answer s _
      · refine answered (settled ?_) _
        exact setBank fun h => h

theorem takeCompletions (ht : execTakeCompletions params s = .next t) : s.KeepsStores t := by
  refine transaction ?_ ht
  (repeat' split) <;> exact of_same rfl rfl rfl

theorem readStatus (ht : execReadStatus params s = .next t) : s.KeepsStores t := by
  refine transaction ?_ ht
  split <;> exact of_same rfl rfl rfl

theorem readBudgetTable (ht : execReadBudgetTable params s = .next t) : s.KeepsStores t := by
  refine transaction ?_ ht
  split <;> exact of_same rfl rfl rfl

theorem readRetired (ht : execReadRetired params s = .next t) : s.KeepsStores t := by
  refine transaction ?_ ht
  (repeat' split) <;> exact of_same rfl rfl rfl

theorem dieReset (ht : execDieReset params s = .next t) : s.KeepsStores t := by
  refine transaction ?_ ht
  split <;> exact of_same rfl rfl rfl

theorem unknownCommand {code : Byte} (ht : execUnknownCommand code params s = .next t) : s.KeepsStores t := by
  unfold execUnknownCommand at ht
  split at ht
  · cases ht
  · exact transaction (answer s _) ht

theorem transactionCut {clockedIn : List Byte} (ht : execTransactionCut clockedIn s = .next t) : s.KeepsStores t := by
  unfold execTransactionCut at ht
  split at ht
  · cases ht
  · exact transaction (refl s) ht

end Host

/-! ### The die reset, pulses and timers -/

theorem dieResetBegin {source : ResetSource} (ht : execDieResetBegin source s = .next t) : s.KeepsStores t := by
  unfold execDieResetBegin at ht
  split at ht
  · cases ht
  · cases ht
    refine of_banks (fun b h => ?_) rfl
    obtain ⟨cut, hb⟩ := s.beginReset_bank source b
    exact hb ▸ h.cutStep cut

theorem dieResetEnd {source : ResetSource} {straps : StationId} {nonce : Nonce} {hselLow : Bool}
    (ht : execDieResetEnd source straps nonce hselLow s = .next t) : s.KeepsStores t := by
  unfold execDieResetEnd at ht
  split at ht
  · split at ht <;> cases ht
    · exact of_banks (fun b h => by cases b <;> exact Bank.stored_afterReset h.array) rfl
    · exact of_same rfl rfl rfl
  · cases ht

theorem pulseEnd {b : BankId} (ht : execPulseEnd b s = .next t) : s.KeepsStores t := by
  unfold execPulseEnd at ht
  split at ht
  · cases ht
  · split at ht <;> cases ht
    exact setBank fun h => h.pulseEnded _

theorem waitLimitExpiry {tag : Byte} (ht : execWaitLimitExpiry tag s = .next t) : s.KeepsStores t := by
  refine happening ?_ ht
  split
  · exact refl s
  · exact settled (withTurn fun h => h.stopSlot _ _)

theorem releaseHoldOffExpiry (ht : execReleaseHoldOffExpiry s = .next t) : s.KeepsStores t := by
  refine happening (act := fun s => s.holdOffOver.settle) (settled ?_) ht
  unfold State.holdOffOver
  dsimp only
  (repeat' split) <;> exact of_same rfl rfl rfl

theorem renewalDue (ht : execRenewalDue s = .next t) : s.KeepsStores t := by
  refine happening ?_ ht
  exact of_same rfl rfl rfl

theorem selfLeaseLapse (ht : execSelfLeaseLapse s = .next t) : s.KeepsStores t := by
  refine happening ?_ ht
  exact settled (of_same rfl rfl rfl)

theorem lastHeardAgeExpiry {k : StationId} (ht : execLastHeardAgeExpiry k s = .next t) : s.KeepsStores t := by
  refine happening ?_ ht
  exact of_same rfl rfl rfl

theorem learningWindowEnd (ht : execLearningWindowEnd s = .next t) : s.KeepsStores t := by
  refine happening ?_ ht
  exact settled (of_same rfl rfl rfl)

/-! ### The bus -/

theorem applyVerdict (s : State) (v : Verdict) : s.KeepsStores (s.applyVerdict v) := by
  unfold State.applyVerdict
  (repeat' split) <;> exact of_same rfl rfl rfl

theorem leaveBus (s : State) (v : Verdict) (broken : Bool) : s.KeepsStores (s.leaveBus v broken) := by
  unfold State.leaveBus
  (repeat' split) <;> exact of_same rfl rfl rfl

theorem withPort (s : State) (p : Port) : s.KeepsStores { s with port := p } := of_same rfl rfl rfl

theorem endFrame (s : State) (l : Line) : s.KeepsStores (s.endFrame l) :=
  settled ((applyVerdict s _).trans ((withPort _ _).trans (leaveBus _ _ _)))

theorem readBit (s : State) (recessive : Bool) : s.KeepsStores (s.readBit recessive) := by
  rcases s.readBit_cases recessive with h | ⟨-, h⟩ | ⟨-, -, h | h⟩ | ⟨heard, -, -, ⟨-, h⟩ | ⟨-, h⟩⟩ <;> rw [h]
  · exact refl s
  · exact withPort s _
  · exact withPort s _
  · exact settled (withPort s _)
  · exact withPort s _
  · exact (withPort s _).trans (endFrame _ _)

theorem readBits (s : State) (bits : List Bool) : s.KeepsStores (s.readBits bits) :=
  State.readBits_induct (fun x b h => h.trans (readBit x b)) (refl s) bits

theorem readWhile (s : State) (recessive : Bool) (going : Port → Bool) (most : Nat) :
    s.KeepsStores (s.readWhile recessive going most) :=
  State.readWhile_induct (fun x b h => h.trans (readBit x b)) (refl s) recessive going most

theorem startAttempt (s : State) : s.KeepsStores s.startAttempt := by
  unfold State.startAttempt
  dsimp only
  (repeat' split) <;> exact of_same rfl rfl rfl

theorem attemptStart (ht : execAttemptStart s = .next t) : s.KeepsStores t := by
  unfold execAttemptStart at ht
  split at ht <;> cases ht
  · exact refl s
  · exact startAttempt s

/-- A well-formed command keeps the stores canonical and leaves the queue of commands. -/
theorem exec {c : Instr} (hc : c.wf = true) (ht : exec c s = .next t) : s.KeepsStores t := by
  cases c with
  | configure params => exact configure ht
  | join params => exact join ht
  | leave params => exact leave ht
  | postRead params => exact postTransaction (p := readPost params) ht
  | postProgram params => exact postTransaction (p := programPost params) ht
  | postFinish params => exact postTransaction (p := finishPost params) ht
  | postErase params => exact postTransaction (p := erasePost params) ht
  | abort params => exact abort ht
  | loadStaging params => exact loadStaging ht
  | fetchOutput params => exact fetchOutput ht
  | releaseOutput params => exact releaseOutput ht
  | takeCompletions params => exact takeCompletions ht
  | readStatus params => exact readStatus ht
  | readBudgetTable params => exact readBudgetTable ht
  | readRetired params => exact readRetired ht
  | dieReset params => exact dieReset ht
  | unknownCommand code params => exact unknownCommand (params := params) ht
  | transactionCut clockedIn => exact transactionCut ht
  | dieResetBegin source => exact dieResetBegin ht
  | dieResetEnd source straps nonce hselLow => exact dieResetEnd ht
  | pulseEnd b => exact pulseEnd ht
  | readSenseEnd b cells => exact stepEnd (fun _ _ _ h hv => h.readSensed hc hv) ht
  | blankCheckEnd b => exact stepEnd (fun _ _ _ h hv => h.blankChecked hv) ht
  | mapScanSenseEnd b cells => exact stepEnd (fun _ _ _ h hv => h.mapSensed hv) ht
  | coarseVerifyEnd b passed => exact stepEnd (fun _ _ _ h hv => h.coarseVerify hv) ht
  | fineVerifyEnd b passed => exact stepEnd (fun _ _ _ h hv => h.fineVerify hv) ht
  | eraseVerifyEnd b passed => exact stepEnd (fun _ _ _ h hv => h.eraseVerify hv) ht
  | mapEraseVerifyEnd b passed => exact stepEnd (fun _ _ _ h hv => h.mapEraseVerify hv) ht
  | mapPageVerifyEnd b passed => exact stepEnd (fun _ _ _ h hv => h.mapPageVerify hv) ht
  | waitLimitExpiry tag => exact waitLimitExpiry ht
  | releaseHoldOffExpiry => exact releaseHoldOffExpiry ht
  | renewalDue => exact renewalDue ht
  | selfLeaseLapse => exact selfLeaseLapse ht
  | lastHeardAgeExpiry k => exact lastHeardAgeExpiry ht
  | learningWindowEnd => exact learningWindowEnd ht
  | busStuckSet => cases ht; exact readWhile ..
  | busStuckClear => cases ht; exact readWhile ..
  | attemptStart => exact attemptStart ht
  | frameEnd n bits => cases ht; exact (readBits s _).trans (readBits _ _)

theorem idleStep (s : State) : s.KeepsStores s.idleStep := by
  unfold State.idleStep
  split
  · unfold State.tick
    split
    · exact refl s
    · exact of_banks (fun b h => by cases b <;> exact h) rfl
  · rename_i b rest _
    have taken : s.KeepsStores { s with wire := rest } := of_same rfl rfl rfl
    exact taken.trans (readBit _ b)

end State.KeepsStores

/-- Settles O54: the command taken was well formed, what it does keeps the stores, and the others still wait. -/
theorem everyStepKeepsStoresCanonical : Obligations.EveryStepKeepsStoresCanonical := by
  intro s t hs ht
  obtain ⟨stored, wf⟩ := State.canonical_iff.1 hs
  unfold step at ht
  split at ht
  · cases ht
    have keeps := State.KeepsStores.idleStep s
    exact State.canonical_iff.2 ⟨keeps.stored stored, keeps.pending ▸ wf⟩
  · rename_i c rest hp
    rw [hp, List.all_cons, Bool.and_eq_true] at wf
    have keeps := State.KeepsStores.exec wf.1 ht
    exact State.canonical_iff.2 ⟨keeps.stored stored, keeps.pending ▸ wf.2⟩

end Sys2Proof.Machine

/-! # The state right after reset, and coherence over a step

The state right after reset is sound. Coherence alone is not kept by every step: it lets an operation stand HELD with every
pulse of its limit given, and from there the gate lets it give one more. -/

namespace Sys2Proof.Machine

/-! ### The state right after reset (R17, R178) -/

theorem factoryArray_marksLegal : factoryArray.marksLegal = true := by decide

/-- A bank as a die reset leaves it is coherent over every array whose marks are legal. -/
theorem Bank.coherent_afterReset {a : ArrayBank} (h : a.marksLegal = true) : (Bank.afterReset a).coherent = true := by
  have marks : (Bank.afterReset a).marksFit = true := by
    simp only [Bank.marksFit, Bool.and_eq_true]
    exact ⟨⟨h, rfl⟩, rfl⟩
  simp only [Bank.coherent, marks, Bool.and_true]
  rfl

theorem State.reset_canonical : State.reset.canonical = true := by
  have bank := Bank.stored_afterReset factoryArray_canonical
  exact State.canonical_iff.2 ⟨fun b => by cases b <;> exact bank, rfl⟩

theorem State.reset_coherent : State.reset.coherent = true := by
  have bank : (Bank.afterReset factoryArray).coherent = true := Bank.coherent_afterReset factoryArray_marksLegal
  simp only [State.coherent, Bool.and_eq_true, Bool.or_eq_true]
  exact ⟨⟨⟨by decide, factoryArray_marksLegal⟩, factoryArray_marksLegal⟩, .inr ⟨bank, bank⟩⟩

/-- Settles O53: the stores and the banks by what a die reset leaves, the rest by evaluation of the one state. -/
theorem resetStateIsSound : Obligations.ResetStateIsSound :=
  ⟨State.reset_canonical, by decide, State.reset_coherent, by decide +kernel, by decide +kernel, by decide, by decide⟩

/-! ### An ERASE that is HELD after its eighth pulse -/

/-- An ERASE of block 5 in bank 0 that became HELD with all eight pulses of its limit given. -/
def eraseHeldAtLimit : Slot :=
  { Slot.posted 1#8 (.erase false) .zero 5 with state := .held, pulses := 8, budgetWaited := true, arrayTouched := true }

/-- A bank with its map loaded, an erased array and the given queue. -/
def loadedBank (queue : List Slot) : Bank :=
  { Bank.afterReset ⟨[], [], []⟩ with
    queue := queue, internal := none, mapState := .loaded, mapBlock := some .a, nextMapPage := 1 }

/-- A SOLO station that holds the 6 units of an ERASE under a budget of 12. -/
def soloHoldingSix : Controller :=
  { Controller.afterReset 0#4 0#16 with
    station := .solo
    settings := some ⟨.solo, 12, 1, 0⟩
    digest := digestOf 12 1
    table := clearedTable.put 0#4 { clearedEntry with known := true, held := 6 } }

/-- The HELD ERASE in bank 0 of that station, with a POST_READ to bank 1 as the command to take. -/
def heldAtLimit : State :=
  { State.reset with
    bank0 := loadedBank [eraseHeldAtLimit]
    bank1 := loadedBank []
    ctl := soloHoldingSix
    pending := [.postRead [2#8, 1#8, 0#8, 0#8, 0#8, 0#8]] }

/-- That state is coherent, and meets the other invariants as well. -/
theorem heldAtLimit_sound : heldAtLimit.coherent = true ∧ heldAtLimit.canonical = true ∧
    heldAtLimit.withinBudget = true ∧ heldAtLimit.quiet = true ∧ heldAtLimit.drawsWithin = true := by decide +kernel

/-- The POST_READ settles the die, the gate admits bank 0, and its ERASE gives a ninth pulse. -/
theorem step_heldAtLimit :
    ∃ t, step heldAtLimit = .next t ∧ t.bank0.queue.map Slot.pulses = [9] ∧ t.bank0.headFits = false ∧
      t.coherent = false :=
  ⟨_, rfl, by decide +kernel, by decide +kernel, by decide +kernel⟩

/-- Refutes O58: a coherent bank may hold an ERASE that is HELD after its eighth pulse (`Bank.headFits` bounds the pulses
by the limit in every state), and where the gate admits it the resumed ERASE gives a ninth, past the limit. -/
theorem not_everyStepKeepsTheBanksCoherent : ¬ Obligations.EveryStepKeepsTheBanksCoherent := by
  intro keeps
  obtain ⟨coherent, -⟩ := heldAtLimit_sound
  obtain ⟨t, ht, -, -, broken⟩ := step_heldAtLimit
  have kept : t.coherent = true := (keeps heldAtLimit coherent).2 t ht
  rw [broken] at kept
  cases kept

end Sys2Proof.Machine

/-! # The operation table

Every change of a bank accounts for each of its slots: it stands in the queue still, not DONE, or it has ended with its
record. So no step loses a slot, holds a tag twice, or leaves a DONE slot in a bank queue. -/

namespace Sys2Proof.Machine

/-! ### Queues by their tags (R20, R22) -/

/-- A tag held once, and the queue without its slot, hold the queue's tags. -/
theorem removeTag_tags_perm {q : List Slot} {tag : Byte} (distinct : (q.map Slot.tag).Nodup)
    (hm : tag ∈ q.map Slot.tag) : (tag :: (removeTag tag q).map Slot.tag).Perm (q.map Slot.tag) := by
  have erased : (removeTag tag q).map Slot.tag = (q.map Slot.tag).erase tag := by
    rw [distinct.erase_eq_filter, List.filter_map]
    rfl
  rw [erased]
  exact (List.perm_cons_erase hm).symm

/-- Slots of one queue of distinct tags that have the same tag are one slot. -/
theorem eq_of_tag_eq {q : List Slot} (distinct : (q.map Slot.tag).Nodup) {x y : Slot} (hx : x ∈ q) (hy : y ∈ q)
    (h : x.tag = y.tag) : x = y :=
  List.inj_on_of_nodup_map distinct hx hy h

/-- A slot of another tag is left by a change of one slot. -/
theorem mem_updateTag_other {q : List Slot} {x : Slot} (hx : x ∈ q) {tag : Byte} (h : x.tag ≠ tag) (f : Slot → Slot) :
    x ∈ updateTag tag f q :=
  List.mem_map.2 ⟨x, hx, if_neg h⟩

theorem mem_of_overtaker {behind : List Slot} {r : Slot} (h : overtaker behind = some r) : r ∈ behind :=
  List.mem_of_find?_eq_some h

theorem overtaker_state {behind : List Slot} {r : Slot} (h : overtaker behind = some r) :
    r.state = .waiting ∨ r.state = .running := by
  simpa using List.find?_some h

theorem mem_of_candidate {block : Nat} {behind : List Slot} {r : Slot} (h : candidate block behind = some r) :
    r ∈ behind :=
  (List.takeWhile_sublist _).subset (List.mem_of_find?_eq_some h)

theorem candidate_state {block : Nat} {behind : List Slot} {r : Slot} (h : candidate block behind = some r) :
    r.state = .queued := by
  have found := List.find?_some h
  simp only [Bool.and_eq_true, beq_iff_eq] at found
  exact found.1

theorem mem_of_runningRead {bk : Bank} {sl : Slot} (h : bk.runningRead = some sl) : sl ∈ bk.queue :=
  List.mem_of_find?_eq_some h

theorem head_mem {bk : Bank} {sl : Slot} {behind : List Slot} (hq : bk.queue = sl :: behind) : sl ∈ bk.queue :=
  hq ▸ List.mem_cons_self

theorem behind_mem {bk : Bank} {sl r : Slot} {behind : List Slot} (hq : bk.queue = sl :: behind) (hr : r ∈ behind) :
    r ∈ bk.queue :=
  hq ▸ List.mem_cons_of_mem _ hr

/-- A change of a slot that leaves its tag and its bank, and does not make it DONE. -/
structure SlotChange (f : Slot → Slot) : Prop where
  tag : ∀ x, (f x).tag = x.tag
  bank : ∀ x, (f x).bank = x.bank
  live : ∀ x, x.state ≠ .done → (f x).state ≠ .done

theorem SlotChange.ite {f : Slot → Slot} (h : SlotChange f) (p : Slot → Prop) [DecidablePred p] :
    SlotChange fun x => if p x then f x else x where
  tag x := by split; exacts [h.tag x, rfl]
  bank x := by split; exacts [h.bank x, rfl]
  live x hx := by split; exacts [h.live x hx, hx]

theorem SlotChange.pulsed (n : Nat) : SlotChange fun x => x.pulsed n := ⟨fun _ => rfl, fun _ => rfl, fun _ _ => nofun⟩

theorem SlotChange.enterHeld : SlotChange Slot.enterHeld := ⟨fun _ => rfl, fun _ => rfl, fun _ _ => nofun⟩

/-- A slot is left as it is but for its state, which is not DONE. -/
theorem SlotChange.toState {st : SlotState} (h : st ≠ .done) : SlotChange fun x => { x with state := st } :=
  ⟨fun _ => rfl, fun _ => rfl, fun _ _ => h⟩

theorem SlotChange.waitTime (n : Slot → Nat) : SlotChange fun x => { x with waitTime := n x } :=
  ⟨fun _ => rfl, fun _ => rfl, fun _ h => h⟩

theorem SlotChange.noteWaiting : SlotChange Slot.noteWaiting :=
  SlotChange.ite (f := fun x => { x with budgetWaited := true }) ⟨fun _ => rfl, fun _ => rfl, fun _ h => h⟩ _

theorem SlotChange.tick : SlotChange Slot.tick := (SlotChange.waitTime fun x => x.waitTime + 1).ite _

theorem SlotChange.restartWait : SlotChange Slot.restartWait := (SlotChange.waitTime fun _ => 0).ite _

/-! ### Slots accounted for -/

/-- A bank's slots once some have ended: between them they hold the given tags, each once; those that stand in the queue are
the bank's own and not DONE, and those that have ended are DONE, each with the record of its tag. -/
structure Accounted (b : BankId) (tags : List Byte) (queue : List Slot) (ended : List DoneSlot) : Prop where
  distinct : tags.Nodup
  tags : (queue.map Slot.tag ++ ended.map fun d => d.slot.tag).Perm tags
  slots : ∀ x ∈ queue, x.state ≠ .done ∧ x.bank = b
  records : ∀ d ∈ ended, d.slot.state = .done ∧ d.record.tag = d.slot.tag

/-- A bank of whose slots none has ended. -/
abbrev Bank.Accounts (bk : Bank) (b : BankId) (tags : List Byte) : Prop := Accounted b tags bk.queue []

/-- A bank's change, with the slots that have ended in it. -/
abbrev Turn.Accounts (t : Turn) (b : BankId) (tags : List Byte) : Prop := Accounted b tags t.bank.queue t.ended

namespace Accounted

variable {b : BankId} {tags : List Byte} {q : List Slot} {ended : List DoneSlot} {bk : Bank} {sl : Slot}
  {behind : List Slot}

theorem queue_distinct (h : Accounted b tags q ended) : (q.map Slot.tag).Nodup :=
  (List.nodup_append.1 (h.tags.nodup_iff.2 h.distinct)).1

theorem held (h : Accounted b tags q []) : (q.map Slot.tag).Perm tags := by simpa using h.tags

/-- The queue as it stands, seen as a bank of which none has ended yet. -/
theorem rest (h : Accounted b tags q ended) : Accounted b (q.map Slot.tag) q [] :=
  ⟨h.queue_distinct, by simp, h.slots, fun _ hd => absurd hd List.not_mem_nil⟩

/-- What ends next ends after what has ended before. -/
theorem andThen (h : Accounted b tags q ended) {q' : List Slot} {more : List DoneSlot}
    (k : Accounted b (q.map Slot.tag) q' more) : Accounted b tags q' (ended ++ more) where
  distinct := h.distinct
  tags := by
    refine List.Perm.trans (List.perm_iff_count.2 fun a => ?_) h.tags
    have := k.tags.count_eq a
    simp only [List.map_append, List.count_append] at this ⊢
    omega
  slots := k.slots
  records d hd := (List.mem_append.1 hd).elim (h.records d) (k.records d)

theorem map (h : Accounted b tags q ended) {f : Slot → Slot} (hf : SlotChange f) : Accounted b tags (q.map f) ended where
  distinct := h.distinct
  tags := by
    have same : (q.map f).map Slot.tag = q.map Slot.tag := by simp [Function.comp_def, hf.tag]
    exact same ▸ h.tags
  slots x hx := by
    obtain ⟨y, hy, rfl⟩ := List.mem_map.1 hx
    exact ⟨hf.live y (h.slots y hy).1, (hf.bank y).trans (h.slots y hy).2⟩
  records := h.records

theorem updateTag (h : Accounted b tags q ended) (tag : Byte) {f : Slot → Slot} (hf : SlotChange f) :
    Accounted b tags (updateTag tag f q) ended :=
  h.map (hf.ite _)

/-- A queue in another order. -/
theorem perm (h : Accounted b tags q ended) {q' : List Slot} (hp : q'.Perm q) : Accounted b tags q' ended :=
  ⟨h.distinct, ((hp.map Slot.tag).append_right _).trans h.tags, fun x hx => h.slots x (hp.subset hx), h.records⟩

theorem endSlot (h : bk.Accounts b tags) (hm : sl.tag ∈ bk.queue.map Slot.tag) (o : OpOutcome) (f : RecordFlags) :
    (bk.endSlot sl o f).Accounts b tags where
  distinct := h.distinct
  tags := (List.perm_append_singleton _ _).trans ((removeTag_tags_perm h.queue_distinct hm).trans h.held)
  slots x hx := h.slots x (mem_removeTag.1 hx).1
  records d hd := by
    obtain rfl := List.mem_singleton.1 hd
    exact ⟨rfl, rfl⟩

/-! #### Start points and READs -/

theorem startPoint (h : bk.Accounts b tags) (hm : sl ∈ bk.queue) : (bk.startPoint sl).Accounts b tags := by
  unfold Bank.startPoint
  split
  · exact h.endSlot (List.mem_map_of_mem hm) ..
  · exact h.updateTag _ ⟨fun _ => rfl, fun _ => rfl, fun _ _ => nofun⟩

theorem completeRead (h : bk.Accounts b tags) (hm : sl ∈ bk.queue) (page : Page) (o : OpOutcome) (f : RecordFlags) :
    (bk.completeRead sl page o f).Accounts b tags :=
  endSlot (bk := { bk with output := ⟨some sl.tag, page⟩ }) h (List.mem_map_of_mem hm) o f

theorem servePending (h : bk.Accounts b tags) (hm : sl ∈ bk.queue) {u : Turn} (hu : bk.servePending sl = some u) :
    u.Accounts b tags := by
  unfold Bank.servePending at hu
  split at hu
  · split at hu
    · cases hu
      exact h.completeRead hm ..
    · cases hu
  all_goals cases hu

theorem completeWaiting (h : bk.Accounts b tags) (hm : sl ∈ bk.queue) {u : Turn} (hu : bk.completeWaiting sl = some u) :
    u.Accounts b tags := by
  unfold Bank.completeWaiting at hu
  split at hu
  · cases hu
  · split at hu
    · cases hu
      exact completeRead (bk := { bk with senseLatch := none }) h hm ..
    · cases hu

theorem advanceStep (h : bk.Accounts b tags) {u : Turn} (hu : bk.advanceStep = some u) : u.Accounts b tags := by
  obtain ⟨-, sl, behind, hq, hc⟩ := Bank.advanceStep_cases hu
  rcases hc with ⟨-, rfl⟩ | ⟨-, hu⟩ | ⟨-, hu⟩ | ⟨-, r, hr, hu⟩ | ⟨-, -, -, r, hr, rfl⟩
  · exact h.startPoint (head_mem hq)
  · exact h.servePending (head_mem hq) hu
  · exact h.completeWaiting (head_mem hq) hu
  · exact h.servePending (behind_mem hq (mem_of_overtaker hr)) hu
  · exact h.startPoint (behind_mem hq (mem_of_candidate hr))

theorem advance {t : Turn} (h : t.Accounts b tags) (n : Nat) : (Bank.advance n t).Accounts b tags := by
  induction n generalizing t with
  | zero => exact h
  | succ n ih =>
    unfold Bank.advance
    split
    · exact h
    · rename_i u hu
      exact ih (t := ⟨u.bank, _⟩) (h.andThen (Accounted.advanceStep (bk := t.bank) h.rest hu))

theorem readSensed (h : bk.Accounts b tags) {cells : Option Page} {u : Turn} (hu : bk.readSensed cells = some u) :
    u.Accounts b tags := by
  unfold Bank.readSensed at hu
  split at hu
  · cases hu
  · rename_i sl hr
    have hm := mem_of_runningRead hr
    split at hu
    · dsimp only at hu
      split at hu
      · cases hu
        exact completeRead (bk := { bk.atRest with senseLatch := none }) h hm ..
      · split at hu
        · cases hu
          exact endSlot (bk := { bk.atRest with senseLatch := none }) h (List.mem_map_of_mem hm) ..
        · cases hu
          exact h.updateTag _ (.toState nofun)
    all_goals cases hu

/-! #### Pulses and the gate -/

theorem nextPulse (h : bk.Accounts b tags) (sl : Slot) : (bk.nextPulse sl).Accounts b tags := by
  unfold Bank.nextPulse
  split
  · exact h
  · split <;> exact h.updateTag _ (.pulsed _)
  · split
    · exact h
    · exact h.updateTag _ (.pulsed _)
  · exact h.updateTag _ (.pulsed _)

theorem beginHost (h : bk.Accounts b tags) (sl : Slot) : (bk.beginHost sl).Accounts b tags := by
  unfold Bank.beginHost
  split
  · exact h.updateTag _ (.toState nofun)
  · split
    · exact h.updateTag _ (.toState nofun)
    · exact h.updateTag _ (.pulsed _)
  · split
    · exact h
    · exact h.updateTag _ (.pulsed _)
  · exact h.updateTag _ (.pulsed _)

theorem beginInternal (h : bk.Accounts b tags) (op : InternalOp) : (bk.beginInternal op).Accounts b tags := by
  cases op <;> exact h

theorem proceed (h : bk.Accounts b tags) : bk.proceed.Accounts b tags := by
  unfold Bank.proceed
  split
  · exact h.beginInternal _
  · split
    · exact h
    · split
      · exact h.beginHost _
      · exact h.nextPulse _
      · split
        · exact h.updateTag _ (.toState nofun)
        · exact h.nextPulse _
      all_goals exact h

theorem noteWaiting (h : bk.Accounts b tags) : bk.noteWaiting.Accounts b tags := by
  unfold Bank.noteWaiting
  split
  · exact h
  · split
    · exact h
    · rename_i sl behind hq
      have hq' : Accounted b tags (sl :: behind) [] := hq ▸ h
      split
      · refine ⟨h.distinct, hq'.tags, fun x hx => ?_, h.records⟩
        rcases List.mem_cons.1 hx with rfl | hx
        · exact ⟨SlotChange.enterHeld.live sl (hq'.slots sl List.mem_cons_self).1, (hq'.slots sl List.mem_cons_self).2⟩
        · exact hq'.slots x (List.mem_cons_of_mem _ hx)
      · exact hq'.map .noteWaiting

/-! #### Ends and boundaries -/

theorem stopStores (h : bk.Accounts b tags) (sl : Slot) : (bk.stopStores sl).Accounts b tags := by
  unfold Bank.stopStores
  (repeat' split) <;> exact h

theorem boundary (h : bk.Accounts b tags) (hm : sl ∈ bk.queue) (gate : Bool) : (bk.boundary sl gate).Accounts b tags := by
  unfold Bank.boundary
  split
  · refine endSlot (stopStores (bk := bk.atRest) h sl) ?_ ..
    have same : (bk.atRest.stopStores sl).queue = bk.queue := by
      unfold Bank.stopStores
      (repeat' split) <;> rfl
    exact same ▸ List.mem_map_of_mem hm
  · split
    · exact h.updateTag _ .enterHeld
    · exact nextPulse (bk := bk.atRest) h sl

theorem endRecording (h : bk.Accounts b tags) (f : RecordFlags) : (bk.endRecording f).Accounts b tags := by
  unfold Bank.endRecording
  split
  · exact h
  · rename_i sl behind hq
    split
    · have hq' : Accounted b tags (sl :: behind) [] := hq ▸ h
      refine ⟨h.distinct, ?_, fun x hx => hq'.slots x (List.mem_cons_of_mem _ hx), fun d hd => ?_⟩
      · exact (List.perm_append_singleton _ _).trans hq'.held
      · obtain rfl := List.mem_singleton.1 hd
        exact ⟨rfl, rfl⟩
    · exact h

theorem failHead (h : bk.Accounts b tags) (sl : Slot) (failure : Failure) : (bk.failHead sl failure).Accounts b tags := by
  have left : (bk.atRest.failStores sl).Accounts b tags := by
    unfold Bank.failStores
    split <;> exact h
  have failed := left.updateTag sl.tag
    (f := fun x => { x with state := .recording, stopRequest := false, failure := some failure })
    ⟨fun _ => rfl, fun _ => rfl, fun _ _ => nofun⟩
  unfold Bank.failHead Bank.handOff
  dsimp only
  split
  · exact endRecording (by exact failed) _
  · split
    · exact endRecording (by exact failed) _
    · split <;> exact failed

theorem coarseVerify (h : bk.Accounts b tags) {passed gate : Bool} {u : Turn}
    (hu : bk.coarseVerify passed gate = some u) : u.Accounts b tags := by
  unfold Bank.coarseVerify at hu
  split at hu
  · rename_i hq _
    have hm := head_mem hq
    split at hu
    · split at hu
      · dsimp only at hu
        split at hu <;> cases hu
        · exact h.endSlot (List.mem_map_of_mem hm) ..
        · exact boundary (bk := (bk.passDone _ _).nextPass _) h hm _
      · split at hu <;> cases hu
        · exact h.failHead ..
        · exact h.boundary hm _
    · cases hu
  · cases hu

theorem fineVerify (h : bk.Accounts b tags) {passed gate : Bool} {u : Turn} (hu : bk.fineVerify passed gate = some u) :
    u.Accounts b tags := by
  unfold Bank.fineVerify at hu
  split at hu
  · rename_i sl _ p hq _
    have hm := head_mem hq
    have ends := fun o f => h.endSlot (List.mem_map_of_mem hm) o f
    split at hu
    · split at hu
      · dsimp only at hu
        split at hu
        · cases hu
          exact ends ..
        · split at hu <;> cases hu
          · exact boundary (bk := (bk.fineDone sl p).nextPass _) h hm _
          · exact ends ..
      · split at hu <;> cases hu
        · exact h.failHead ..
        · exact h.boundary hm _
    · split at hu
      · cases hu
        exact ends ..
      · split at hu <;> cases hu
        · exact h.failHead ..
        · exact h.boundary hm _
    · cases hu
  · cases hu

theorem eraseVerify (h : bk.Accounts b tags) {passed gate : Bool} {u : Turn} (hu : bk.eraseVerify passed gate = some u) :
    u.Accounts b tags := by
  unfold Bank.eraseVerify at hu
  split at hu
  · cases hu
  · rename_i hq
    have hm := head_mem hq
    split at hu
    · split at hu
      · cases hu
        exact h.endSlot (List.mem_map_of_mem hm) ..
      · split at hu
        · cases hu
          exact h.failHead ..
        · split at hu <;> cases hu
          · exact h.updateTag _ ⟨fun _ => rfl, fun _ => rfl, fun _ _ => nofun⟩
          · exact h.boundary hm _
    all_goals cases hu

theorem blankChecked (h : bk.Accounts b tags) {gate : Bool} {u : Turn} (hu : bk.blankChecked gate = some u) :
    u.Accounts b tags := by
  unfold Bank.blankChecked at hu
  split at hu
  · cases hu
  · rename_i hq
    have hm := head_mem hq
    split at hu
    · dsimp only at hu
      split at hu <;> cases hu
      · exact boundary (bk := { bk with senseLatch := none }) h hm _
      · exact h.endSlot (List.mem_map_of_mem hm) ..
    all_goals cases hu

/-- The overtaking READ at the head of the others is the same queue in another order (R33). -/
theorem promoteOvertaker_perm {behind : List Slot} (distinct : (behind.map Slot.tag).Nodup) :
    (promoteOvertaker behind).Perm behind := by
  unfold promoteOvertaker
  split
  · exact .refl _
  · rename_i r hr
    have hm := mem_of_overtaker hr
    have nodup : behind.Nodup := distinct.of_map
    have others : removeTag r.tag behind = behind.erase r := by
      rw [nodup.erase_eq_filter]
      refine List.filter_congr fun x hx => ?_
      rw [Bool.eq_iff_iff, bne_iff_ne, bne_iff_ne]
      exact not_congr ⟨eq_of_tag_eq distinct hx hm, congrArg Slot.tag⟩
    rw [others]
    exact (List.perm_cons_erase hm).symm

theorem stopSlot (h : bk.Accounts b tags) (hm : sl.tag ∈ bk.queue.map Slot.tag) (o : OpOutcome) :
    (bk.stopSlot sl o).Accounts b tags := by
  have ends := h.endSlot hm o noFlags
  unfold Bank.stopSlot
  split
  · exact ends
  · exact ends
  · unfold Bank.stopStores
    (repeat' split) <;> exact ends
  · exact ends.perm (promoteOvertaker_perm ends.queue_distinct)
  · exact ends
  all_goals exact h

/-! #### The map unit -/

theorem mapSensed (h : bk.Accounts b tags) {cells : Option Page} {u : Turn} (hu : bk.mapSensed cells = some u) :
    u.Accounts b tags := by
  unfold Bank.mapSensed at hu
  split at hu
  · dsimp only at hu
    split at hu <;> cases hu
    · exact h
    · unfold Bank.settleMap
      split <;> exact h
  · cases hu

theorem degrade (h : bk.Accounts b tags) : bk.degrade.Accounts b tags :=
  endRecording (bk := { bk with internal := none, mapState := .degraded }) h _

theorem mapWritten (h : bk.Accounts b tags) (block : MapBlock) (w : Nat) : (bk.mapWritten block w).Accounts b tags := by
  unfold Bank.mapWritten
  exact endRecording (by exact h) _

theorem mapPageVerify (h : bk.Accounts b tags) {passed : Bool} {u : Turn} (hu : bk.mapPageVerify passed = some u) :
    u.Accounts b tags := by
  have ended : ({ bk with step := none } : Bank).Accounts b tags := h
  unfold Bank.mapPageVerify at hu
  dsimp only at hu
  split at hu
  · split at hu
    · cases hu
      exact ended.mapWritten ..
    · split at hu <;> cases hu
      · unfold Bank.updateFailed
        dsimp only
        split
        · exact degrade h
        · split <;> exact h
      · exact ended
  · split at hu
    · cases hu
      exact ended.mapWritten ..
    · split at hu <;> cases hu
      · unfold Bank.rewriteFailed
        dsimp only
        split
        · exact degrade h
        · exact h
      · exact ended
  · cases hu

theorem mapEraseVerify (h : bk.Accounts b tags) {passed : Bool} {u : Turn} (hu : bk.mapEraseVerify passed = some u) :
    u.Accounts b tags := by
  unfold Bank.mapEraseVerify at hu
  dsimp only at hu
  split at hu
  · split at hu
    · cases hu
      exact h
    · split at hu <;> cases hu
      · exact degrade h
      · exact h
  · cases hu

end Accounted

end Sys2Proof.Machine

/-! # The operation table over a step

The operation table is sound when both banks account for their slots and the tags of all slots in use are distinct. What follows
a change keeps every slot; only a post brings one, and TAKE_COMPLETIONS and a die reset free some. -/

namespace Sys2Proof.Machine

/-- The operation table is sound, as facts about each bank (R18, R19, R20, R22, R28). -/
structure State.Table (s : State) : Prop where
  few : s.tagsInUse.length ≤ slotLimit
  short : ∀ b, (s.bank b).queue.length ≤ queueLimit
  distinct : s.tagsInUse.Nodup
  slots : ∀ b, ∀ sl ∈ (s.bank b).queue, sl.state ≠ .done ∧ sl.bank = b
  records : ∀ d ∈ s.completions, d.slot.state = .done ∧ d.record.tag = d.slot.tag

theorem State.length_tagsInUse (s : State) : s.tagsInUse.length = s.slotsInUse := by
  simp [State.tagsInUse, State.slotsInUse, Nat.add_assoc]

theorem BankId.forall_iff {P : BankId → Prop} : (∀ b, P b) ↔ P .zero ∧ P .one :=
  ⟨fun h => ⟨h .zero, h .one⟩, fun ⟨h0, h1⟩ b => by cases b <;> assumption⟩

theorem State.tableSound_iff {s : State} : s.tableSound = true ↔ s.Table := by
  have fields : s.Table ↔ s.slotsInUse ≤ slotLimit ∧ (∀ b, (s.bank b).queue.length ≤ queueLimit) ∧ s.tagsInUse.Nodup ∧
      (∀ d ∈ s.completions, d.slot.state = .done ∧ d.record.tag = d.slot.tag) ∧
      ∀ b, ∀ sl ∈ (s.bank b).queue, sl.state ≠ .done ∧ sl.bank = b :=
    ⟨fun ⟨few, short, distinct, slots, records⟩ => ⟨s.length_tagsInUse ▸ few, short, distinct, records, slots⟩,
      fun ⟨few, short, distinct, records, slots⟩ => ⟨s.length_tagsInUse ▸ few, short, distinct, slots, records⟩⟩
  simp only [fields, BankId.forall_iff, State.bank, State.tableSound, Bool.and_eq_true, decide_eq_true_eq,
    List.all_eq_true]
  tauto

theorem State.mem_tagsInUse {s : State} {tag : Byte} : tag ∈ s.tagsInUse ↔
    (∃ b, ∃ sl ∈ (s.bank b).queue, sl.tag = tag) ∨ ∃ d ∈ s.completions, d.slot.tag = tag := by
  have banks : (∃ b, ∃ sl ∈ (s.bank b).queue, sl.tag = tag) ↔
      (∃ sl ∈ s.bank0.queue, sl.tag = tag) ∨ ∃ sl ∈ s.bank1.queue, sl.tag = tag :=
    ⟨fun ⟨b, h⟩ => by cases b; exacts [.inl h, .inr h], fun h => h.elim (⟨.zero, ·⟩) (⟨.one, ·⟩)⟩
  simp [State.tagsInUse, banks, or_assoc]

namespace State.Table

variable {s t : State}

theorem queue_distinct (h : s.Table) (b : BankId) : ((s.bank b).queue.map Slot.tag).Nodup := by
  obtain ⟨banks, -, -⟩ := List.nodup_append.1 h.distinct
  obtain ⟨zero, one, -⟩ := List.nodup_append.1 banks
  cases b
  exacts [zero, one]

/-- A tag of the completion queue stands in no bank queue. -/
theorem ne_of_completed (h : s.Table) {d : DoneSlot} (hd : d ∈ s.completions) {b : BankId} {sl : Slot}
    (hm : sl ∈ (s.bank b).queue) : sl.tag ≠ d.slot.tag := by
  obtain ⟨-, -, apart⟩ := List.nodup_append.1 h.distinct
  refine apart _ ?_ _ (List.mem_map.2 ⟨d, hd, rfl⟩)
  cases b
  exacts [List.mem_append_left _ (List.mem_map_of_mem hm), List.mem_append_right _ (List.mem_map_of_mem hm)]

/-- Slots of both banks that have the same tag are one slot of one bank. -/
theorem slot_unique (h : s.Table) {b c : BankId} {x y : Slot} (hx : x ∈ (s.bank b).queue) (hy : y ∈ (s.bank c).queue)
    (ht : x.tag = y.tag) : b = c ∧ x = y := by
  obtain ⟨banks, -, -⟩ := List.nodup_append.1 h.distinct
  obtain ⟨-, -, apart⟩ := List.nodup_append.1 banks
  cases b <;> cases c
  · exact ⟨rfl, eq_of_tag_eq (h.queue_distinct .zero) hx hy ht⟩
  · exact absurd ht (apart _ (List.mem_map_of_mem hx) _ (List.mem_map_of_mem hy))
  · exact absurd ht.symm (apart _ (List.mem_map_of_mem hy) _ (List.mem_map_of_mem hx))
  · exact ⟨rfl, eq_of_tag_eq (h.queue_distinct .one) hx hy ht⟩

/-- A bank of a sound table accounts for the slots of its queue. -/
theorem accounts (h : s.Table) (b : BankId) : (s.bank b).Accounts b ((s.bank b).queue.map Slot.tag) :=
  ⟨h.queue_distinct b, by simp, h.slots b, fun _ hd => absurd hd List.not_mem_nil⟩

/-- The table depends on the queues and the completions alone. -/
theorem of_same (h : s.Table) (hq : ∀ b, (t.bank b).queue = (s.bank b).queue) (hc : t.completions = s.completions) :
    t.Table := by
  have tags : t.tagsInUse = s.tagsInUse := by
    unfold State.tagsInUse
    rw [hc, show t.bank0.queue = s.bank0.queue from hq .zero, show t.bank1.queue = s.bank1.queue from hq .one]
  exact ⟨tags ▸ h.few, fun b => hq b ▸ h.short b, tags ▸ h.distinct, fun b => hq b ▸ h.slots b, hc ▸ h.records⟩

end State.Table

/-! ### Changes that keep every slot -/

/-- A change keeps a sound table sound and every tag in use. -/
structure State.KeepsTable (s t : State) : Prop where
  table : s.Table → t.Table
  tags : s.Table → t.tagsInUse.Perm s.tagsInUse

namespace State.KeepsTable

variable {s t u : State}

theorem refl (s : State) : s.KeepsTable s := ⟨id, fun _ => .refl _⟩

theorem trans (h : s.KeepsTable t) (k : t.KeepsTable u) : s.KeepsTable u :=
  ⟨k.table ∘ h.table, fun hs => (k.tags (h.table hs)).trans (h.tags hs)⟩

theorem of_same (h0 : t.bank0.queue = s.bank0.queue) (h1 : t.bank1.queue = s.bank1.queue)
    (hc : t.completions = s.completions) : s.KeepsTable t where
  table hs := hs.of_same (fun b => by cases b; exacts [h0, h1]) hc
  tags _ := by
    unfold State.tagsInUse
    rw [h0, h1, hc]

/-- A bank's change that accounts for its slots keeps the table: what leaves the queue joins the completions. -/
theorem withTurn {b : BankId} {v : Turn}
    (h : ∀ tags, (s.bank b).Accounts b tags → v.Accounts b tags) : s.KeepsTable (s.withTurn b v) := by
  have accounted (hs : s.Table) := h _ (hs.accounts b)
  have tags (hs : s.Table) : (s.withTurn b v).tagsInUse.Perm s.tagsInUse := by
    refine List.perm_iff_count.2 fun a => ?_
    have moved := (accounted hs).tags.count_eq a
    cases b <;> simp only [State.tagsInUse, State.withTurn, State.setBank, State.bank, List.map_append,
      List.count_append] at moved ⊢ <;> omega
  refine ⟨fun hs => ?_, tags⟩
  have all := tags hs
  refine ⟨all.length_eq.trans_le hs.few, fun b' => ?_, all.nodup_iff.2 hs.distinct, fun b' => ?_, fun d hd => ?_⟩
  · have shorter : v.bank.queue.length ≤ (s.bank b).queue.length := by
      have := (accounted hs).tags.length_eq
      simp only [List.length_append, List.length_map] at this
      omega
    have := hs.short b'
    cases b <;> cases b'
    exacts [shorter.trans this, this, this, shorter.trans this]
  · have mine := (accounted hs).slots
    have others := hs.slots b'
    cases b <;> cases b'
    exacts [mine, others, others, mine]
  · exact (List.mem_append.1 hd).elim (hs.records d) ((accounted hs).records d)

theorem setBank {b : BankId} {bk : Bank} (h : ∀ tags, (s.bank b).Accounts b tags → bk.Accounts b tags) :
    s.KeepsTable (s.setBank b bk) := by
  have turn := withTurn (v := Turn.of bk) h
  have same : s.withTurn b (Turn.of bk) = s.setBank b bk := by
    cases b <;> simp [State.withTurn, State.setBank, Turn.of]
  exact same ▸ turn

/-- A change of the slots of both banks, each in its place. -/
theorem mapBanks {f : Slot → Slot} (hf : SlotChange f) (h0 : t.bank0.queue = s.bank0.queue.map f)
    (h1 : t.bank1.queue = s.bank1.queue.map f) (hc : t.completions = s.completions) : s.KeepsTable t := by
  have bank (x : State) (b : BankId) :=
    setBank (s := x) (b := b) (bk := { x.bank b with queue := (x.bank b).queue.map f }) fun _ h => h.map hf
  exact (bank s .zero).trans ((bank _ .one).trans (of_same h0 h1 hc))

/-! #### Settling -/

theorem advanceBank (s : State) (b : BankId) : s.KeepsTable (s.advanceBank b) :=
  withTurn fun _ h => Accounted.advance (t := Turn.of (s.bank b)) h _

theorem advanceBanks (s : State) : s.KeepsTable s.advanceBanks := (advanceBank s .zero).trans (advanceBank _ .one)

theorem tryBank (s : State) (b : BankId) : s.KeepsTable (s.tryBank b) := by
  rcases s.tryBank_cases b with h | ⟨-, -, h⟩ <;> rw [h]
  · exact refl s
  · exact setBank fun _ h => h.proceed

theorem tryBanks (s : State) : s.KeepsTable s.tryBanks := (tryBank s .zero).trans (tryBank _ .one)

theorem soloClaim (s : State) : s.KeepsTable s.soloClaim := of_same (by simp) (by simp) (by simp)

theorem admitAll (s : State) : s.KeepsTable s.admitAll := (tryBanks s).trans ((soloClaim _).trans (tryBanks _))

theorem noteWaiting (s : State) : s.KeepsTable s.noteWaiting := by
  have bank (x : State) (b : BankId) := setBank (s := x) (b := b) fun _ h => h.noteWaiting
  exact (bank s .zero).trans ((bank _ .one).trans (of_same rfl rfl rfl))

theorem orderPause (s : State) (b : BankId) : s.KeepsTable (s.orderPause b) := by
  unfold State.orderPause
  split
  · exact setBank fun _ h => h
  · exact refl s

theorem orderPauses (s : State) : s.KeepsTable s.orderPauses := (orderPause s .zero).trans (orderPause _ .one)

theorem tendTransmit (s : State) : s.KeepsTable s.tendTransmit := of_same (by simp) (by simp) (by simp)

theorem settle (s : State) : s.KeepsTable s.settle :=
  (advanceBanks s).trans <| (admitAll _).trans <| (noteWaiting _).trans <| (orderPauses _).trans (tendTransmit _)

theorem settled (h : s.KeepsTable t) : s.KeepsTable t.settle := h.trans (settle t)

theorem answer (s : State) (r : Response) : s.KeepsTable (s.answer r) := of_same rfl rfl rfl

theorem answered (h : s.KeepsTable t) (r : Response) : s.KeepsTable (t.answer r) := h.trans (answer t r)

theorem noteMap (s : State) (b : BankId) (before : MapState) : s.KeepsTable (s.noteMap b before) := by
  unfold State.noteMap
  dsimp only
  split
  · exact of_same rfl rfl rfl
  · exact refl s

theorem conclude {b : BankId} {v : Turn} (h : ∀ tags, (s.bank b).Accounts b tags → v.Accounts b tags) :
    s.KeepsTable (s.conclude b v) :=
  settled ((withTurn h).trans (noteMap _ _ _))

/-- An operation that is stopped from outside ends, by whatever slot holds its tag. -/
theorem stopNow {b : BankId} {sl : Slot} (hm : sl.tag ∈ (s.bank b).queue.map Slot.tag) (o : OpOutcome) :
    s.KeepsTable (s.stopNow b sl o) :=
  settled (withTurn fun _ h => h.stopSlot hm o)

/-! #### The shared operations of the meanings -/

theorem transaction {act : State → State} (h : s.KeepsTable (act s)) (ht : s.transaction act = .next t) :
    s.KeepsTable t := by
  rcases s.transaction_cases act with ⟨-, hc⟩ | ⟨-, hc⟩ | ⟨-, -, -, hc⟩ <;> cases hc.symm.trans ht
  · exact h
  · exact refl s
  · exact of_same rfl rfl rfl

theorem happening {enabled : Bool} {r : Refusal} {act : State → State} (h : s.KeepsTable (act s))
    (ht : s.happening enabled r act = .next t) : s.KeepsTable t := by
  obtain ⟨-, -, rfl⟩ := State.happening_next ht
  exact h

theorem stepEnd {b : BankId} {ended : Step} {finish : Bank → Bool → Option Turn}
    (h : ∀ bk gate v tags, bk.Accounts b tags → finish bk gate = some v → v.Accounts b tags)
    (ht : s.stepEnd b ended finish = .next t) : s.KeepsTable t := by
  obtain ⟨-, -, v, hv, rfl⟩ := State.stepEnd_next ht
  exact conclude fun _ hb => h _ _ v _ hb hv

/-! #### The host commands -/

section Host

variable {params : List Byte}

theorem restartWaits (s : State) (c : Controller) :
    s.KeepsTable { s with ctl := c, bank0 := s.bank0.restartWaits, bank1 := s.bank1.restartWaits } :=
  mapBanks (f := Slot.restartWait) SlotChange.restartWait rfl rfl rfl

theorem configure (ht : execConfigure params s = .next t) : s.KeepsTable t := by
  refine transaction ?_ ht
  (repeat' split)
  iterate 3 exact answer s _
  exact answered (settled (restartWaits s _)) _

theorem join (ht : execJoin params s = .next t) : s.KeepsTable t := by
  refine transaction ?_ ht
  (repeat' split) <;> exact of_same rfl rfl rfl

theorem leave (ht : execLeave params s = .next t) : s.KeepsTable t := by
  refine transaction ?_ ht
  (repeat' split) <;> exact of_same rfl rfl rfl

theorem requestStop (s : State) (b : BankId) (tag : Byte) : s.KeepsTable (s.requestStop b tag) :=
  setBank fun _ h => h.updateTag tag ⟨fun _ => rfl, fun _ => rfl, fun _ hx => hx⟩

theorem abort (ht : execAbort params s = .next t) : s.KeepsTable t := by
  refine transaction ?_ ht
  split
  · exact answer s _
  · split
    · rename_i b sl found
      have hm := List.mem_map_of_mem (f := Slot.tag) (State.slotOfTag_some found).1
      unfold State.abortSlot
      split
      iterate 5 exact answered (stopNow hm _) _
      · exact answered (requestStop s b _) _
      · exact answer s _
      · exact answer s _
    · split <;> exact answer s _

theorem loadStaging (ht : execLoadStaging params s = .next t) : s.KeepsTable t := by
  refine transaction ?_ ht
  (repeat' split)
  · exact answer s _
  · exact answered (setBank (bk := (s.bank _).loadStaging ..) fun _ h => h) _
  · exact answer s _
  · exact answer s _

theorem fetchOutput (ht : execFetchOutput params s = .next t) : s.KeepsTable t := by
  refine transaction ?_ ht
  (repeat' split) <;> exact of_same rfl rfl rfl

theorem releaseOutput (ht : execReleaseOutput params s = .next t) : s.KeepsTable t := by
  refine transaction ?_ ht
  (repeat' split)
  iterate 3 exact answer s _
  exact answered (settled (setBank (bk := (s.bank _).freeOutput) fun _ h => h)) _

theorem readStatus (ht : execReadStatus params s = .next t) : s.KeepsTable t := by
  refine transaction ?_ ht
  split <;> exact of_same rfl rfl rfl

theorem readBudgetTable (ht : execReadBudgetTable params s = .next t) : s.KeepsTable t := by
  refine transaction ?_ ht
  split <;> exact of_same rfl rfl rfl

theorem readRetired (ht : execReadRetired params s = .next t) : s.KeepsTable t := by
  refine transaction ?_ ht
  (repeat' split) <;> exact of_same rfl rfl rfl

theorem dieReset (ht : execDieReset params s = .next t) : s.KeepsTable t := by
  refine transaction ?_ ht
  split <;> exact of_same rfl rfl rfl

theorem unknownCommand {code : Byte} (ht : execUnknownCommand code params s = .next t) : s.KeepsTable t := by
  unfold execUnknownCommand at ht
  split at ht
  · cases ht
  · exact transaction (answer s _) ht

theorem transactionCut {clockedIn : List Byte} (ht : execTransactionCut clockedIn s = .next t) : s.KeepsTable t := by
  unfold execTransactionCut at ht
  split at ht
  · cases ht
  · exact transaction (refl s) ht

end Host

/-! #### Pulses and timers -/

theorem dieResetBegin {source : ResetSource} (ht : execDieResetBegin source s = .next t) : s.KeepsTable t := by
  unfold execDieResetBegin at ht
  split at ht <;> cases ht
  exact of_same rfl rfl rfl

theorem pulseEnd {b : BankId} (ht : execPulseEnd b s = .next t) : s.KeepsTable t := by
  unfold execPulseEnd at ht
  split at ht
  · cases ht
  · split at ht <;> cases ht
    exact setBank (bk := (s.bank b).pulseEnded _) fun _ h => h

theorem waitLimitExpiry {tag : Byte} (ht : execWaitLimitExpiry tag s = .next t) : s.KeepsTable t := by
  refine happening ?_ ht
  split
  · exact refl s
  · rename_i b sl found
    have hm := List.mem_map_of_mem (f := Slot.tag) (State.slotOfTag_some (Option.filter_eq_some_iff.1 found).1).1
    refine stopNow ?_ _
    exact hm

theorem releaseHoldOffExpiry (ht : execReleaseHoldOffExpiry s = .next t) : s.KeepsTable t := by
  refine happening (act := fun s => s.holdOffOver.settle) (settled ?_) ht
  unfold State.holdOffOver
  dsimp only
  (repeat' split) <;> exact of_same rfl rfl rfl

theorem renewalDue (ht : execRenewalDue s = .next t) : s.KeepsTable t := by
  refine happening ?_ ht
  exact of_same rfl rfl rfl

theorem selfLeaseLapse (ht : execSelfLeaseLapse s = .next t) : s.KeepsTable t := by
  refine happening ?_ ht
  exact settled (of_same rfl rfl rfl)

theorem lastHeardAgeExpiry {k : StationId} (ht : execLastHeardAgeExpiry k s = .next t) : s.KeepsTable t := by
  refine happening ?_ ht
  exact of_same rfl rfl rfl

theorem learningWindowEnd (ht : execLearningWindowEnd s = .next t) : s.KeepsTable t := by
  refine happening ?_ ht
  exact settled (of_same rfl rfl rfl)

/-! #### The bus -/

theorem withPort (s : State) (p : Port) : s.KeepsTable { s with port := p } := of_same rfl rfl rfl

theorem endFrame (s : State) (l : Line) : s.KeepsTable (s.endFrame l) := by
  have applies (x : State) (v : Verdict) : x.KeepsTable (x.applyVerdict v) := by
    unfold State.applyVerdict
    (repeat' split) <;> exact of_same rfl rfl rfl
  have leaves (x : State) (v : Verdict) (broken : Bool) : x.KeepsTable (x.leaveBus v broken) := by
    unfold State.leaveBus
    (repeat' split) <;> exact of_same rfl rfl rfl
  exact settled ((applies s _).trans ((withPort _ _).trans (leaves _ _ _)))

theorem readBit (s : State) (recessive : Bool) : s.KeepsTable (s.readBit recessive) := by
  rcases s.readBit_cases recessive with h | ⟨-, h⟩ | ⟨-, -, h | h⟩ | ⟨heard, -, -, ⟨-, h⟩ | ⟨-, h⟩⟩ <;> rw [h]
  · exact refl s
  · exact withPort s _
  · exact withPort s _
  · exact settled (withPort s _)
  · exact withPort s _
  · exact (withPort s _).trans (endFrame _ _)

theorem readBits (s : State) (bits : List Bool) : s.KeepsTable (s.readBits bits) :=
  State.readBits_induct (fun x b h => h.trans (readBit x b)) (refl s) bits

theorem readWhile (s : State) (recessive : Bool) (going : Port → Bool) (most : Nat) :
    s.KeepsTable (s.readWhile recessive going most) :=
  State.readWhile_induct (fun x b h => h.trans (readBit x b)) (refl s) recessive going most

theorem attemptStart (ht : execAttemptStart s = .next t) : s.KeepsTable t := by
  unfold execAttemptStart at ht
  split at ht <;> cases ht
  · exact refl s
  · unfold State.startAttempt
    dsimp only
    (repeat' split) <;> exact of_same rfl rfl rfl

theorem tick (s : State) : s.KeepsTable s.tick := by
  unfold State.tick
  split
  · exact refl s
  · exact mapBanks (f := Slot.tick) SlotChange.tick rfl rfl rfl

theorem idleStep (s : State) : s.KeepsTable s.idleStep := by
  unfold State.idleStep
  split
  · exact tick s
  · rename_i b rest _
    have taken : s.KeepsTable { s with wire := rest } := of_same rfl rfl rfl
    exact taken.trans (readBit _ b)

end State.KeepsTable

/-! ### A post, and slots that become FREE -/

/-- The state with a posted operation at the tail of its bank's queue (R21, R22). -/
def State.withPosted (s : State) (b : BankId) (posted : Slot) : State :=
  s.setBank b { s.bank b with queue := (s.bank b).queue ++ [posted] }

theorem State.enqueue_eq (s : State) (tag : Byte) (b : BankId) (block : Nat) (op : HostOp) :
    s.enqueue tag b block op = (s.withPosted b (Slot.posted tag op b block)).settle.answer .accepted := rfl

theorem State.withPosted_tags (s : State) (b : BankId) (posted : Slot) :
    (s.withPosted b posted).tagsInUse.Perm (posted.tag :: s.tagsInUse) := by
  refine List.perm_iff_count.2 fun a => ?_
  cases b <;> simp only [State.withPosted, State.tagsInUse, State.setBank, State.bank, List.map_append, List.map_cons,
    List.map_nil, List.count_append, List.count_cons, List.count_nil] <;> omega

namespace State.Table

variable {s t : State}

/-- A post that passes its checks keeps the table sound (R18, R20, R22). -/
theorem withPosted (hs : s.Table) {b : BankId} {posted : Slot} (new : posted.tag ∉ s.tagsInUse)
    (few : s.slotsInUse < slotLimit) (short : (s.bank b).queue.length < queueLimit) (live : posted.state ≠ .done)
    (own : posted.bank = b) : (s.withPosted b posted).Table := by
  have tags := s.withPosted_tags b posted
  have queue (b' : BankId) : ((s.withPosted b posted).bank b').queue =
      if b' = b then (s.bank b).queue ++ [posted] else (s.bank b').queue := by
    cases b <;> cases b' <;> rfl
  refine ⟨?_, fun b' => ?_, tags.nodup_iff.2 (List.nodup_cons.2 ⟨new, hs.distinct⟩), fun b' => ?_, ?_⟩
  · rw [tags.length_eq, List.length_cons, s.length_tagsInUse]
    exact few
  · rw [queue]
    split
    · rw [List.length_append, List.length_singleton]
      exact short
    · exact hs.short b'
  · rw [queue]
    split
    · rename_i same
      subst same
      intro sl hm
      rcases List.mem_append.1 hm with hm | hm
      · exact hs.slots _ sl hm
      · obtain rfl := List.mem_singleton.1 hm
        exact ⟨live, own⟩
    · exact hs.slots b'
  · have same : (s.withPosted b posted).completions = s.completions := by simp [State.withPosted]
    exact same ▸ hs.records

theorem post (hs : s.Table) (p : Option Post) : (s.post p).Table := by
  have answer (r : Response) := (State.KeepsTable.answer s r).table hs
  unfold State.post
  split
  · exact answer _
  · split
    · exact answer _
    · split
      · exact answer _
      · rename_i p _ b block op _ new
        split
        · exact answer _
        · rename_i few
          split
          · exact answer _
          · rename_i short
            have posted := hs.withPosted (posted := Slot.posted p.tag op b block) (mt List.contains_iff_mem.2 new) (Nat.lt_of_not_le few)
              (Nat.lt_of_not_le short) nofun rfl
            rw [State.enqueue_eq]
            exact ((State.KeepsTable.settle _).answered _).table posted

theorem postTransaction (hs : s.Table) {p : Option Post} (ht : s.transaction (fun s => s.post p) = .next t) :
    t.Table := by
  rcases s.transaction_cases (fun s => s.post p) with ⟨-, hc⟩ | ⟨-, hc⟩ | ⟨-, -, -, hc⟩ <;> cases hc.symm.trans ht
  · exact hs.post p
  · exact hs
  · exact hs.of_same (fun _ => rfl) rfl

/-- Records that are taken make their slots FREE (R29). -/
theorem dropCompletions (hs : s.Table) (n : Nat) : ({ s with completions := s.completions.drop n } : State).Table := by
  have tags : ({ s with completions := s.completions.drop n } : State).tagsInUse.Sublist s.tagsInUse :=
    (List.Sublist.refl _).append ((List.drop_sublist n _).map _)
  exact ⟨tags.length_le.trans hs.few, hs.short, hs.distinct.sublist tags, hs.slots,
    fun d hd => hs.records d (List.mem_of_mem_drop hd)⟩

theorem takeCompletions (hs : s.Table) {params : List Byte} (ht : execTakeCompletions params s = .next t) : t.Table := by
  unfold execTakeCompletions at ht
  rcases s.transaction_cases _ with ⟨-, hc⟩ | ⟨-, hc⟩ | ⟨-, -, -, hc⟩ <;> cases hc.symm.trans ht
  · split
    · exact (State.KeepsTable.answer s _).table hs
    · split
      · exact (State.KeepsTable.answer s _).table hs
      · exact (hs.dropCompletions _).of_same (fun _ => rfl) rfl
  · exact hs
  · exact hs.of_same (fun _ => rfl) rfl

/-- A die reset makes every slot FREE (R34). -/
theorem dieResetEnd (hs : s.Table) {source : ResetSource} {straps : StationId} {nonce : Nonce} {hselLow : Bool}
    (ht : execDieResetEnd source straps nonce hselLow s = .next t) : t.Table := by
  unfold execDieResetEnd at ht
  split at ht
  · split at ht <;> cases ht
    · exact ⟨Nat.zero_le _, fun b => by cases b <;> exact Nat.zero_le _, List.nodup_nil,
        fun b _ hm => by cases b <;> exact absurd hm List.not_mem_nil, fun _ hd => absurd hd List.not_mem_nil⟩
    · exact hs.of_same (fun _ => rfl) rfl
  · cases ht

/-- Every command and happening keeps the operation table. -/
theorem exec (hs : s.Table) {c : Instr} (ht : exec c s = .next t) : t.Table := by
  cases c with
  | configure params => exact (State.KeepsTable.configure ht).table hs
  | join params => exact (State.KeepsTable.join ht).table hs
  | leave params => exact (State.KeepsTable.leave ht).table hs
  | postRead params => exact hs.postTransaction (p := readPost params) ht
  | postProgram params => exact hs.postTransaction (p := programPost params) ht
  | postFinish params => exact hs.postTransaction (p := finishPost params) ht
  | postErase params => exact hs.postTransaction (p := erasePost params) ht
  | abort params => exact (State.KeepsTable.abort ht).table hs
  | loadStaging params => exact (State.KeepsTable.loadStaging ht).table hs
  | fetchOutput params => exact (State.KeepsTable.fetchOutput ht).table hs
  | releaseOutput params => exact (State.KeepsTable.releaseOutput ht).table hs
  | takeCompletions params => exact hs.takeCompletions ht
  | readStatus params => exact (State.KeepsTable.readStatus ht).table hs
  | readBudgetTable params => exact (State.KeepsTable.readBudgetTable ht).table hs
  | readRetired params => exact (State.KeepsTable.readRetired ht).table hs
  | dieReset params => exact (State.KeepsTable.dieReset ht).table hs
  | unknownCommand code params => exact (State.KeepsTable.unknownCommand (params := params) ht).table hs
  | transactionCut clockedIn => exact (State.KeepsTable.transactionCut ht).table hs
  | dieResetBegin source => exact (State.KeepsTable.dieResetBegin ht).table hs
  | dieResetEnd source straps nonce hselLow => exact hs.dieResetEnd ht
  | pulseEnd b => exact (State.KeepsTable.pulseEnd ht).table hs
  | readSenseEnd b cells => exact (State.KeepsTable.stepEnd (fun _ _ _ _ h hv => h.readSensed hv) ht).table hs
  | blankCheckEnd b => exact (State.KeepsTable.stepEnd (fun _ _ _ _ h hv => h.blankChecked hv) ht).table hs
  | mapScanSenseEnd b cells => exact (State.KeepsTable.stepEnd (fun _ _ _ _ h hv => h.mapSensed hv) ht).table hs
  | coarseVerifyEnd b passed => exact (State.KeepsTable.stepEnd (fun _ _ _ _ h hv => h.coarseVerify hv) ht).table hs
  | fineVerifyEnd b passed => exact (State.KeepsTable.stepEnd (fun _ _ _ _ h hv => h.fineVerify hv) ht).table hs
  | eraseVerifyEnd b passed => exact (State.KeepsTable.stepEnd (fun _ _ _ _ h hv => h.eraseVerify hv) ht).table hs
  | mapEraseVerifyEnd b passed => exact (State.KeepsTable.stepEnd (fun _ _ _ _ h hv => h.mapEraseVerify hv) ht).table hs
  | mapPageVerifyEnd b passed => exact (State.KeepsTable.stepEnd (fun _ _ _ _ h hv => h.mapPageVerify hv) ht).table hs
  | waitLimitExpiry tag => exact (State.KeepsTable.waitLimitExpiry ht).table hs
  | releaseHoldOffExpiry => exact (State.KeepsTable.releaseHoldOffExpiry ht).table hs
  | renewalDue => exact (State.KeepsTable.renewalDue ht).table hs
  | selfLeaseLapse => exact (State.KeepsTable.selfLeaseLapse ht).table hs
  | lastHeardAgeExpiry k => exact (State.KeepsTable.lastHeardAgeExpiry ht).table hs
  | learningWindowEnd => exact (State.KeepsTable.learningWindowEnd ht).table hs
  | busStuckSet => cases ht; exact (State.KeepsTable.readWhile ..).table hs
  | busStuckClear => cases ht; exact (State.KeepsTable.readWhile ..).table hs
  | attemptStart => exact (State.KeepsTable.attemptStart ht).table hs
  | frameEnd n bits => cases ht; exact ((State.KeepsTable.readBits s _).trans (State.KeepsTable.readBits _ _)).table hs

end State.Table

/-- Settles O55: on an empty queue nothing but time or a bit passes, and every command keeps the table. -/
theorem everyStepKeepsTheOperationTable : Obligations.EveryStepKeepsTheOperationTable := by
  intro s t sound ht
  have hs := State.tableSound_iff.1 sound
  refine State.tableSound_iff.2 ?_
  unfold step at ht
  split at ht
  · cases ht
    exact (State.KeepsTable.idleStep s).table hs
  · rename_i c rest _
    have waits : ({ s with pending := rest } : State).Table := hs.of_same (fun _ => rfl) rfl
    exact waits.exec ht

end Sys2Proof.Machine

/-! # What settling a change leaves

A bank whose front runs is left alone, one that does not run afterwards has the array it had, and a held output buffer keeps
its page. What happens at once at the front of a bank is carried on until the bank rests. -/

namespace Sys2Proof.Machine

/-! ### The running front of a bank (R87) -/

theorem Bank.isRunning_iff {bk : Bank} : bk.isRunning = true ↔
    (∃ i, bk.internal = some i ∧ i.begun = true) ∨
      (bk.internal = none ∧ ∃ sl behind, bk.queue = sl :: behind ∧
        (sl.state = .running ∨ (sl.state = .suspended ∧ ∃ r, overtaker behind = some r ∧ r.state = .running))) := by
  unfold Bank.isRunning
  cases hi : bk.internal with
  | some i => simp
  | none =>
    cases hq : bk.queue with
    | nil => simp
    | cons sl behind => cases hs : sl.state <;> cases ho : overtaker behind <;> simp [hs, ho]

/-- A head that runs is the running front of a bank with no internal operation. -/
theorem Bank.isRunning_of_head {bk : Bank} {sl : Slot} {behind : List Slot} (hi : bk.internal = none)
    (hq : bk.queue = sl :: behind) (hs : sl.state = .running) : bk.isRunning = true :=
  Bank.isRunning_iff.2 (.inr ⟨hi, sl, behind, hq, .inl hs⟩)

theorem overtaker_map {f : Slot → Slot} (hf : ∀ x, (f x).state = x.state) (behind : List Slot) :
    overtaker (behind.map f) = (overtaker behind).map f := by
  simp [overtaker, List.find?_map, hf]

/-- Whether a bank runs does not depend on more of its slots than their states. -/
theorem Bank.isRunning_map {bk u : Bank} {f : Slot → Slot} (hf : ∀ x, (f x).state = x.state)
    (hi : u.internal = bk.internal) (hq : u.queue = bk.queue.map f) : u.isRunning = bk.isRunning := by
  unfold Bank.isRunning
  rw [hi, hq]
  cases bk.internal with
  | some i => rfl
  | none =>
    cases bk.queue with
    | nil => rfl
    | cons sl behind =>
      simp only [List.map_cons, hf, overtaker_map hf]
      cases overtaker behind <;> simp [hf]

/-- Nothing follows at once at the front of a bank that runs. -/
theorem Bank.advanceStep_of_running {bk : Bank} (h : bk.isRunning = true) : bk.advanceStep = none := by
  cases hu : bk.advanceStep with
  | none => rfl
  | some u =>
    exfalso
    obtain ⟨hi, sl, behind, hq, hc⟩ := Bank.advanceStep_cases hu
    rcases Bank.isRunning_iff.1 h with ⟨i, hi', -⟩ | ⟨-, sl', behind', hq', run⟩
    · exact absurd (hi.symm.trans hi') nofun
    · obtain ⟨rfl, rfl⟩ : sl = sl' ∧ behind = behind' := by simpa using hq.symm.trans hq'
      rcases run with hs | ⟨hs, r, hr, hrs⟩ <;> simp only [hs, reduceCtorEq, false_and, false_or, or_false, true_and] at hc
      rcases hc with ⟨r', hr', hu⟩ | ⟨none, -⟩
      · obtain rfl : r = r' := Option.some.inj (hr.symm.trans hr')
        unfold Bank.servePending at hu
        simp only [hrs, reduceCtorEq, false_and, if_false] at hu
        split at hu <;> cases hu
      · exact absurd (hr.symm.trans none) nofun

/-- While the output buffer is held, a head operation's start point is all that can follow at the front of a bank. -/
theorem Bank.advanceStep_held {bk : Bank} {u : Turn} (hold : bk.outputFree = false)
    (h : bk.advanceStep = some u) :
    ∃ sl behind, bk.queue = sl :: behind ∧ sl.state = .queued ∧ u = bk.startPoint sl := by
  have served (sl : Slot) : bk.servePending sl = none := by
    unfold Bank.servePending
    simp only [hold, Bool.false_eq_true, and_false, if_false]
    split <;> rfl
  have completed (sl : Slot) : bk.completeWaiting sl = none := by
    unfold Bank.completeWaiting
    simp only [hold, Bool.false_eq_true, if_false]
    split <;> rfl
  obtain ⟨-, sl, behind, hq, hc⟩ := Bank.advanceStep_cases h
  simp only [served, completed, hold, reduceCtorEq, and_false, false_and, exists_false, or_false, Bool.false_eq_true]
    at hc
  exact ⟨sl, behind, hq, hc.1, hc.2⟩

/-! ### What the gate lets go on (R57, R68, R79, R88) -/

/-- A bank in which the slots of a tag have become RUNNING, and no internal operation has come or gone. -/
def Bank.Runs (bk u : Bank) (tag : Byte) : Prop :=
  u.internal = bk.internal ∧ ∃ f : Slot → Slot, (∀ x, (f x).state = .running) ∧ u.queue = updateTag tag f bk.queue

theorem Bank.nextPulse_runs (bk : Bank) (sl : Slot) :
    bk.nextPulse sl = bk ∨ bk.Runs (bk.nextPulse sl) sl.tag := by
  have pulsed (n : Nat) (x : Slot) : (x.pulsed n).state = .running := rfl
  unfold Bank.nextPulse
  split
  · exact .inl rfl
  · split <;> exact .inr ⟨rfl, _, pulsed _, rfl⟩
  · split
    · exact .inl rfl
    · exact .inr ⟨rfl, _, pulsed _, rfl⟩
  · exact .inr ⟨rfl, _, pulsed _, rfl⟩

theorem Bank.beginSense_runs (bk : Bank) (sl : Slot) (use : SenseUse) : bk.Runs (bk.beginSense sl use) sl.tag :=
  ⟨rfl, fun x => { x with state := .running }, fun _ => rfl, rfl⟩

theorem Bank.beginHost_runs (bk : Bank) (sl : Slot) :
    bk.beginHost sl = bk ∨ bk.Runs (bk.beginHost sl) sl.tag := by
  have pulsed (n : Nat) (x : Slot) : (x.pulsed n).state = .running := rfl
  unfold Bank.beginHost
  split
  · exact .inr (bk.beginSense_runs sl _)
  · split
    · exact .inr (bk.beginSense_runs sl _)
    · exact .inr ⟨rfl, _, pulsed _, rfl⟩
  · split
    · exact .inl rfl
    · exact .inr ⟨rfl, _, pulsed _, rfl⟩
  · exact .inr ⟨rfl, _, pulsed _, rfl⟩

/-- What the gate lets go on: nothing, the internal operation ahead, the head that was WAITING, HELD or SUSPENDED, or the READ
that overtakes a SUSPENDED head. -/
theorem Bank.proceed_cases (bk : Bank) : bk.proceed = bk ∨
    (∃ i, bk.internal = some i ∧ bk.proceed = bk.beginInternal i.op) ∨
    (bk.internal = none ∧ ∃ sl behind, bk.queue = sl :: behind ∧
      (sl.state = .waiting ∨ sl.state = .held ∨ sl.state = .suspended) ∧ bk.Runs bk.proceed sl.tag) ∨
    (bk.internal = none ∧ ∃ sl behind, bk.queue = sl :: behind ∧ sl.state = .suspended ∧
      ∃ r, overtaker behind = some r ∧ bk.Runs bk.proceed r.tag) := by
  unfold Bank.proceed
  split
  · rename_i i hi
    exact .inr (.inl ⟨i, hi, rfl⟩)
  · rename_i hi
    split
    · exact .inl rfl
    · rename_i sl behind hq
      split
      · rename_i hs
        exact (bk.beginHost_runs sl).imp_right fun runs => .inr (.inl ⟨hi, sl, behind, hq, .inl hs, runs⟩)
      · rename_i hs
        exact (bk.nextPulse_runs sl).imp_right fun runs => .inr (.inl ⟨hi, sl, behind, hq, .inr (.inl hs), runs⟩)
      · rename_i hs
        split
        · rename_i r hr
          exact .inr (.inr (.inr ⟨hi, sl, behind, hq, hs, r, hr, bk.beginSense_runs r _⟩))
        · exact (bk.nextPulse_runs sl).imp_right fun runs => .inr (.inl ⟨hi, sl, behind, hq, .inr (.inr hs), runs⟩)
      all_goals exact .inl rfl

/-! ### A bank that is left alone -/

/-- A slot without its note that it has waited for budget. -/
def Slot.clearWaited (sl : Slot) : Slot := { sl with budgetWaited := false }

/-- A bank as it was but for a pause order and BUDGET_WAITED. -/
def Bank.LeftAlone (bk u : Bank) : Prop :=
  ∃ q order, u = { bk with queue := q, pauseOrder := order } ∧
    q.map Slot.clearWaited = bk.queue.map Slot.clearWaited

namespace Bank.LeftAlone

variable {bk u w : Bank}

theorem refl (bk : Bank) : bk.LeftAlone bk := ⟨bk.queue, bk.pauseOrder, rfl, rfl⟩

theorem trans (h : bk.LeftAlone u) (k : u.LeftAlone w) : bk.LeftAlone w := by
  obtain ⟨q, order, rfl, hq⟩ := h
  obtain ⟨q', order', rfl, hq'⟩ := k
  exact ⟨q', order', rfl, hq'.trans hq⟩

theorem isRunning (h : bk.LeftAlone u) : u.isRunning = bk.isRunning := by
  obtain ⟨q, order, rfl, hq⟩ := h
  let cleared : Bank := { bk with queue := bk.queue.map Slot.clearWaited }
  have before : cleared.isRunning = bk.isRunning := Bank.isRunning_map (f := Slot.clearWaited) (fun _ => rfl) rfl rfl
  have after : cleared.isRunning = ({ bk with queue := q, pauseOrder := order } : Bank).isRunning :=
    Bank.isRunning_map (f := Slot.clearWaited) (fun _ => rfl) rfl hq.symm
  exact after.symm.trans before

end Bank.LeftAlone

/-- The fields of a bank's map unit (R158). -/
def Bank.mapUnit (bk : Bank) : List RetiredEntry × MapState × Option MapBlock × Nat × BitVec 32 × Nat :=
  (bk.retired, bk.mapState, bk.mapBlock, bk.nextMapPage, bk.mapSeq, bk.mapFailureRun)

/-- What settling may do to a bank. -/
structure Bank.Settles (bk u : Bank) : Prop where
  alone : bk.isRunning = true → bk.LeftAlone u
  array : u.isRunning = false → u.array = bk.array
  map : u.mapUnit = bk.mapUnit
  held : bk.outputFree = false → u.output = bk.output ∧ u.senseLatch = bk.senseLatch

namespace Bank.Settles

variable {bk u w : Bank}

theorem of_alone (h : bk.LeftAlone u) : bk.Settles u := by
  refine ⟨fun _ => h, ?_, ?_, ?_⟩ <;> obtain ⟨q, order, rfl, -⟩ := h
  exacts [fun _ => rfl, rfl, fun _ => ⟨rfl, rfl⟩]

theorem refl (bk : Bank) : bk.Settles bk := of_alone (.refl bk)

theorem trans (h : bk.Settles u) (k : u.Settles w) : bk.Settles w where
  alone run := (h.alone run).trans (k.alone ((h.alone run).isRunning.trans run))
  array rest := by
    have before : u.isRunning = false := by
      by_contra run
      have run : u.isRunning = true := by simpa using run
      exact absurd ((k.alone run).isRunning.trans run) (by simp [rest])
    exact (k.array rest).trans (h.array before)
  map := k.map.trans h.map
  held hold := by
    obtain ⟨output, latch⟩ := h.held hold
    have hold' : u.outputFree = false := by simpa [Bank.outputFree, output] using hold
    obtain ⟨output', latch'⟩ := k.held hold'
    exact ⟨output'.trans output, latch'.trans latch⟩

/-! #### Start points and completions -/

theorem startPoint_stores (bk : Bank) (sl : Slot) :
    (bk.startPoint sl).bank.output = bk.output ∧ (bk.startPoint sl).bank.senseLatch = bk.senseLatch := by
  unfold Bank.startPoint
  split <;> exact ⟨rfl, rfl⟩

theorem advanceStep {t : Turn} (h : bk.advanceStep = some t) : bk.Settles t.bank where
  alone run := absurd ((Bank.advanceStep_of_running run).symm.trans h) nofun
  array _ := by
    obtain ⟨q, r, o, same⟩ := Bank.advanceStep_same h
    rw [same]
  map := by
    obtain ⟨q, r, o, same⟩ := Bank.advanceStep_same h
    rw [same]
    rfl
  held hold := by
    obtain ⟨sl, -, -, -, rfl⟩ := Bank.advanceStep_held hold h
    exact startPoint_stores bk sl

theorem advance (n : Nat) (t : Turn) : t.bank.Settles (Bank.advance n t).bank := by
  induction n generalizing t with
  | zero => exact refl _
  | succ n ih =>
    unfold Bank.advance
    split
    · exact refl _
    · rename_i u hu
      exact (advanceStep hu).trans (ih ⟨u.bank, t.ended ++ u.ended⟩)

/-! #### The gate -/

theorem overtaker_updateTag {f : Slot → Slot} (hf : ∀ x, (f x).state = .running) {behind : List Slot} {r : Slot}
    (h : overtaker behind = some r) : ∃ r', overtaker (updateTag r.tag f behind) = some r' ∧ r'.state = .running := by
  induction behind with
  | nil => cases h
  | cons x xs ih =>
    have cons : updateTag r.tag f (x :: xs) = (if x.tag = r.tag then f x else x) :: updateTag r.tag f xs := rfl
    rw [cons]
    by_cases same : x.tag = r.tag
    · exact ⟨f x, by simp [overtaker, same, hf], hf x⟩
    · simp only [overtaker, List.find?_cons, same, if_false] at h ⊢
      split at h
      · exact absurd (congrArg Slot.tag (Option.some.inj h)) same
      · exact ih h

/-- What the gate lets go on runs from then on. -/
theorem isRunning_proceed (bk : Bank) : bk.proceed = bk ∨ bk.proceed.isRunning = true := by
  rcases bk.proceed_cases with same | ⟨i, -, same⟩ | ⟨hi, sl, behind, hq, -, internal, f, hf, queue⟩ |
    ⟨hi, sl, behind, hq, hs, r, hr, internal, f, hf, queue⟩
  · exact .inl same
  · right
    rw [same]
    cases i.op <;> rfl
  · right
    rw [hq] at queue
    exact Bank.isRunning_of_head (internal.trans hi) (queue.trans (congrArg₂ List.cons (if_pos rfl) rfl)) (hf sl)
  · right
    rw [hq] at queue
    by_cases same : sl.tag = r.tag
    · exact Bank.isRunning_of_head (internal.trans hi) (queue.trans (congrArg₂ List.cons (if_pos same) rfl)) (hf sl)
    · obtain ⟨r', hr', hrs⟩ := overtaker_updateTag hf hr
      exact Bank.isRunning_iff.2 (.inr ⟨internal.trans hi, sl, _, queue.trans (congrArg₂ List.cons (if_neg same) rfl),
        .inr ⟨hs, r', hr', hrs⟩⟩)

theorem proceed (waits : bk.isWaiting = true) : bk.Settles bk.proceed where
  alone run := by
    simp only [Bank.isWaiting, run, Bool.not_true, Bool.and_false, Bool.false_eq_true] at waits
  array rest := by
    rcases isRunning_proceed bk with same | run
    · rw [same]
    · exact absurd run (by simp [rest])
  map := by
    obtain ⟨a, q, i, st, p, n, sg, l, ps, ob, same⟩ := Bank.proceed_same bk
    rw [same]
    rfl
  held _ := by
    obtain ⟨a, q, i, st, p, n, sg, l, ps, ob, same⟩ := Bank.proceed_same bk
    rw [same]
    exact ⟨rfl, rfl⟩

/-! #### What waits, and pause orders -/

theorem clearWaited_noteWaiting (sl : Slot) : sl.noteWaiting.clearWaited = sl.clearWaited := by
  unfold Slot.noteWaiting
  split <;> rfl

theorem noteWaiting_cases (bk : Bank) : bk.noteWaiting = bk ∨
    (bk.noteWaiting = { bk with queue := bk.queue.map Slot.noteWaiting }) ∨
    (bk.internal = none ∧ ∃ sl behind, bk.queue = sl :: behind ∧ sl.state = .suspended ∧ overtaker behind = none ∧
      bk.noteWaiting = { bk with queue := sl.enterHeld :: behind }) := by
  unfold Bank.noteWaiting
  split
  · exact .inl rfl
  · rename_i hi
    split
    · exact .inl rfl
    · rename_i sl behind hq
      split
      · rename_i hs
        exact .inr (.inr ⟨by simpa using hi, sl, behind, hq, hs.1, hs.2, rfl⟩)
      · exact .inr (.inl (by rw [hq]))

theorem noteWaiting (bk : Bank) : bk.Settles bk.noteWaiting := by
  rcases noteWaiting_cases bk with same | noted | ⟨hi, sl, behind, hq, hs, none, resumed⟩
  · exact same.symm ▸ refl bk
  · refine of_alone ⟨_, _, noted, ?_⟩
    simp [Function.comp_def, clearWaited_noteWaiting]
  · rw [resumed]
    refine ⟨fun run => ?_, fun _ => rfl, rfl, fun _ => ⟨rfl, rfl⟩⟩
    rcases Bank.isRunning_iff.1 run with ⟨i, hi', -⟩ | ⟨-, sl', behind', hq', hs' | ⟨-, r, hr, -⟩⟩
    · exact absurd (hi.symm.trans hi') nofun
    · obtain ⟨rfl, -⟩ : sl = sl' ∧ behind = behind' := by simpa using hq.symm.trans hq'
      exact absurd (hs.symm.trans hs') nofun
    · obtain ⟨-, rfl⟩ : sl = sl' ∧ behind = behind' := by simpa using hq.symm.trans hq'
      exact absurd (none.symm.trans hr) nofun

end Bank.Settles

/-! ### The banks of a state that is settled -/

/-- A change does to each bank what settling may do. -/
def State.BanksSettle (s t : State) : Prop := ∀ b, (s.bank b).Settles (t.bank b)

namespace State.BanksSettle

variable {s t u : State}

theorem refl (s : State) : s.BanksSettle s := fun _ => .refl _

theorem trans (h : s.BanksSettle t) (k : t.BanksSettle u) : s.BanksSettle u := fun b => (h b).trans (k b)

theorem of_same (h0 : t.bank0 = s.bank0) (h1 : t.bank1 = s.bank1) : s.BanksSettle t := by
  intro b
  have same : t.bank b = s.bank b := by cases b <;> assumption
  exact same ▸ .refl _

theorem setBank {b : BankId} {bk : Bank} (h : (s.bank b).Settles bk) : s.BanksSettle (s.setBank b bk) := by
  intro b'
  cases b <;> cases b'
  exacts [h, .refl _, .refl _, h]

theorem advanceBank (s : State) (b : BankId) : s.BanksSettle (s.advanceBank b) := by
  have set : s.BanksSettle (s.setBank b (Bank.advance (s.bank b).advanceFuel (Turn.of (s.bank b))).bank) :=
    setBank (Bank.Settles.advance _ (Turn.of (s.bank b)))
  exact set.trans (of_same rfl rfl)

theorem tryBank (s : State) (b : BankId) : s.BanksSettle (s.tryBank b) := by
  rcases s.tryBank_cases b with h | ⟨waits, -, h⟩ <;> rw [h]
  · exact refl s
  · exact setBank (.proceed waits)

theorem tryBanks (s : State) : s.BanksSettle s.tryBanks := (tryBank s .zero).trans (tryBank _ .one)

theorem admitAll (s : State) : s.BanksSettle s.admitAll :=
  (tryBanks s).trans ((of_same (State.soloClaim_bank0 _) (State.soloClaim_bank1 _)).trans (tryBanks _))

theorem noteWaiting (s : State) : s.BanksSettle s.noteWaiting :=
  fun b => by cases b <;> exact Bank.Settles.noteWaiting _

theorem orderPause (s : State) (b : BankId) : s.BanksSettle (s.orderPause b) := by
  unfold State.orderPause
  split
  · exact setBank (.of_alone ⟨_, true, rfl, rfl⟩)
  · exact refl s

/-- Settling does to each bank what `Bank.Settles` says. -/
theorem settle (s : State) : s.BanksSettle s.settle :=
  (advanceBank s .zero).trans <| (advanceBank _ .one).trans <| (admitAll _).trans <| (noteWaiting _).trans <|
    (orderPause _ .zero).trans <| (orderPause _ .one).trans (of_same (State.tendTransmit_bank0 _) (State.tendTransmit_bank1 _))

end State.BanksSettle

/-! ### The front is carried on until it rests -/

/-- How many things can still happen at once at the front of a queue: a QUEUED slot may reach its start point, and each may
end. -/
def thingsLeft (q : List Slot) : Nat := (q.map fun sl => if sl.state = .queued then 2 else 1).sum

theorem thingsLeft_le (q : List Slot) : thingsLeft q ≤ 2 * q.length := by
  induction q with
  | nil => exact Nat.le_refl 0
  | cons x xs ih =>
    simp only [thingsLeft, List.map_cons, List.sum_cons, List.length_cons] at ih ⊢
    split <;> omega

theorem thingsLeft_removeTag_le (tag : Byte) (q : List Slot) : thingsLeft (removeTag tag q) ≤ thingsLeft q :=
  (List.filter_sublist.map _).sum_le_sum fun _ _ => Nat.zero_le _

theorem thingsLeft_removeTag {q : List Slot} {sl : Slot} (hm : sl ∈ q) :
    thingsLeft (removeTag sl.tag q) < thingsLeft q := by
  induction q with
  | nil => cases hm
  | cons x xs ih =>
    have pos : 0 < if x.state = .queued then 2 else 1 := by split <;> decide
    by_cases same : x.tag = sl.tag
    · have rest := thingsLeft_removeTag_le sl.tag xs
      have dropped : removeTag sl.tag (x :: xs) = removeTag sl.tag xs := by simp [removeTag, same]
      rw [dropped]
      simp only [thingsLeft, List.map_cons, List.sum_cons] at rest ⊢
      omega
    · have hm' : sl ∈ xs := (List.mem_cons.1 hm).resolve_left fun e => same (congrArg Slot.tag e.symm)
      have rest := ih hm'
      have kept : removeTag sl.tag (x :: xs) = x :: removeTag sl.tag xs := by simp [removeTag, same]
      rw [kept]
      simp only [thingsLeft, List.map_cons, List.sum_cons] at rest ⊢
      omega

/-- A slot that leaves QUEUED leaves one thing fewer. -/
theorem thingsLeft_updateTag {q : List Slot} {sl : Slot} {f : Slot → Slot} (hm : sl ∈ q) (hs : sl.state = .queued)
    (hf : ∀ x, (f x).state ≠ .queued) : thingsLeft (updateTag sl.tag f q) < thingsLeft q := by
  unfold thingsLeft updateTag
  rw [List.map_map]
  refine List.sum_lt_sum _ _ (fun x _ => ?_) ⟨sl, hm, ?_⟩
  · simp only [Function.comp_apply]
    split
    · rw [if_neg (hf x)]
      split <;> decide
    · exact Nat.le_refl _
  · simp [hs, hf]

namespace Bank

variable {bk : Bank} {t u : Turn}

theorem thingsLeft_startPoint {sl : Slot} (hm : sl ∈ bk.queue) (hs : sl.state = .queued) :
    thingsLeft (bk.startPoint sl).bank.queue < thingsLeft bk.queue := by
  unfold Bank.startPoint
  split
  · exact thingsLeft_removeTag hm
  · exact thingsLeft_updateTag hm hs fun _ => nofun

theorem thingsLeft_servePending {sl : Slot} (hm : sl ∈ bk.queue) (h : bk.servePending sl = some u) :
    thingsLeft u.bank.queue < thingsLeft bk.queue := by
  unfold Bank.servePending at h
  split at h
  · split at h <;> cases h
    exact thingsLeft_removeTag hm
  all_goals cases h

theorem thingsLeft_completeWaiting {sl : Slot} (hm : sl ∈ bk.queue) (h : bk.completeWaiting sl = some u) :
    thingsLeft u.bank.queue < thingsLeft bk.queue := by
  unfold Bank.completeWaiting at h
  split at h
  · cases h
  · split at h <;> cases h
    exact thingsLeft_removeTag hm

/-- Each thing that happens at the front leaves fewer to happen. -/
theorem thingsLeft_advanceStep (h : bk.advanceStep = some u) : thingsLeft u.bank.queue < thingsLeft bk.queue := by
  obtain ⟨-, sl, behind, hq, hc⟩ := Bank.advanceStep_cases h
  rcases hc with ⟨hs, rfl⟩ | ⟨-, h⟩ | ⟨-, h⟩ | ⟨-, r, hr, h⟩ | ⟨-, -, -, r, hr, rfl⟩
  · exact thingsLeft_startPoint (head_mem hq) hs
  · exact thingsLeft_servePending (head_mem hq) h
  · exact thingsLeft_completeWaiting (head_mem hq) h
  · exact thingsLeft_servePending (behind_mem hq (mem_of_overtaker hr)) h
  · exact thingsLeft_startPoint (behind_mem hq (mem_of_candidate hr)) (candidate_state hr)

theorem advance_of_rest (h : t.bank.advanceStep = none) (n : Nat) : Bank.advance n t = t := by
  cases n with
  | zero => rfl
  | succ n => simp [Bank.advance, h]

theorem advance_succ (h : t.bank.advanceStep = some u) (n : Nat) :
    Bank.advance (n + 1) t = Bank.advance n ⟨u.bank, t.ended ++ u.ended⟩ := by
  simp [Bank.advance, h]

/-- With as many things allowed as are left, the bank rests. -/
theorem advance_rests {n : Nat} (h : thingsLeft t.bank.queue ≤ n) : (Bank.advance n t).bank.advanceStep = none := by
  induction n generalizing t with
  | zero =>
    cases hu : t.bank.advanceStep with
    | none => exact hu
    | some u => exact absurd ((Bank.thingsLeft_advanceStep hu).trans_le h) (Nat.not_lt_zero _)
  | succ n ih =>
    cases hu : t.bank.advanceStep with
    | none => rw [Bank.advance_of_rest hu]; exact hu
    | some u =>
      rw [Bank.advance_succ hu]
      exact ih (Nat.le_of_lt_succ ((Bank.thingsLeft_advanceStep hu).trans_le h))

/-- More things allowed than are left change nothing. -/
theorem advance_enough {n m : Nat} (hn : thingsLeft t.bank.queue ≤ n) (hm : thingsLeft t.bank.queue ≤ m) :
    Bank.advance n t = Bank.advance m t := by
  induction n generalizing t m with
  | zero =>
    have rests := Bank.advance_rests hn
    exact (Bank.advance_of_rest rests m).symm
  | succ n ih =>
    cases hu : t.bank.advanceStep with
    | none => rw [Bank.advance_of_rest hu, Bank.advance_of_rest hu]
    | some u =>
      have fewer := Bank.thingsLeft_advanceStep hu
      obtain ⟨m, rfl⟩ : ∃ k, m = k + 1 := ⟨m - 1, by omega⟩
      rw [Bank.advance_succ hu, Bank.advance_succ hu]
      exact ih (Nat.le_of_lt_succ (fewer.trans_le hn)) (Nat.le_of_lt_succ (fewer.trans_le hm))

/-- What has ended before has no part in what happens next. -/
theorem advance_prefix (n : Nat) (bk : Bank) (before ended : List DoneSlot) :
    Bank.advance n ⟨bk, before ++ ended⟩ =
      ⟨(Bank.advance n ⟨bk, ended⟩).bank, before ++ (Bank.advance n ⟨bk, ended⟩).ended⟩ := by
  induction n generalizing bk ended with
  | zero => rfl
  | succ n ih =>
    cases hu : bk.advanceStep with
    | none => rw [Bank.advance_of_rest hu, Bank.advance_of_rest hu]
    | some u => rw [Bank.advance_succ hu, Bank.advance_succ hu, List.append_assoc, ih]

theorem thingsLeft_le_fuel (bk : Bank) : thingsLeft bk.queue ≤ bk.advanceFuel :=
  (thingsLeft_le _).trans (Nat.le_add_right _ 2)

end Bank

namespace State

variable {s : State} {b : BankId} {u : Turn}

theorem withTurn_of (s : State) (b : BankId) (bk : Bank) : s.withTurn b (Turn.of bk) = s.setBank b bk := by
  cases b <;> simp [State.withTurn, State.setBank, Turn.of]

theorem advanceBank_of_rest (h : (s.bank b).advanceStep = none) : s.advanceBank b = s := by
  unfold State.advanceBank
  rw [Bank.advance_of_rest h, withTurn_of, State.setBank_bank_self]

/-- The bank's next thing happens, and then what follows from it. -/
theorem advanceBank_step (h : (s.bank b).advanceStep = some u) : s.advanceBank b = (s.withTurn b u).advanceBank b := by
  have next : Bank.advance (s.bank b).advanceFuel (Turn.of (s.bank b)) =
      Bank.advance u.bank.advanceFuel ⟨u.bank, u.ended ++ []⟩ := by
    rw [Bank.advanceFuel, Bank.advance_succ (t := Turn.of (s.bank b)) h, List.append_nil]
    refine Bank.advance_enough (Nat.le_of_lt_succ ?_) u.bank.thingsLeft_le_fuel
    exact (Bank.thingsLeft_advanceStep h).trans_le (s.bank b).thingsLeft_le_fuel
  unfold State.advanceBank
  rw [next, Bank.advance_prefix, State.withTurn_bank]
  cases b <;> simp [State.withTurn, State.setBank, Turn.of]

theorem advanceBank_rests (s : State) (b : BankId) : ((s.advanceBank b).bank b).advanceStep = none := by
  unfold State.advanceBank
  rw [State.withTurn_bank]
  exact Bank.advance_rests (s.bank b).thingsLeft_le_fuel

theorem tendTransmit_holdOff (hi : s.ctl.station ≠ .inService) (hs : s.ctl.station ≠ .solo) :
    s.tendTransmit.ctl.holdOff = none := by
  unfold State.tendTransmit
  split
  · exact absurd ‹_› hi
  · exact absurd ‹_› hs
  all_goals rfl

theorem settle_holdOff (hi : s.ctl.station ≠ .inService) (hs : s.ctl.station ≠ .solo) :
    s.settle.ctl.holdOff = none := by
  unfold State.settle
  exact tendTransmit_holdOff (by simpa using hi) (by simpa using hs)

/-- Map news is raised exactly where the map state has become LOST or DEGRADED (R158, R176). -/
theorem noteMap_eq (s : State) (b : BankId) (before : MapState) :
    s.noteMap b before = if ((s.bank b).mapState = .lost ∨ (s.bank b).mapState = .degraded) ∧
      (s.bank b).mapState ≠ before then { s with link := s.link.raiseMapNews b } else s := by
  have news : (s.bank b).mapState.isNews = true ↔ (s.bank b).mapState = .lost ∨ (s.bank b).mapState = .degraded := by
    cases (s.bank b).mapState <;> decide
  unfold State.noteMap
  simp only [news]

end State

/-- Settles O35: the frame from the laws of settling and `State.BanksSettle.settle`, the carrying on from the things left, and
the end of a step from `State.noteMap_eq`. -/
theorem settlingKeepsTheRest : Obligations.SettlingKeepsTheRest := by
  refine ⟨fun s => ?frame, fun s b => ⟨State.advanceBank_of_rest, fun u h => State.advanceBank_step h,
    State.advanceBank_rests s b⟩, fun s b u => ?news⟩
  case frame =>
    have banks := State.BanksSettle.settle s
    refine ⟨s.settle_port, s.settle_link, s.settle_inReset, s.settle_fresh, s.settle_pending, s.settle_wire,
      s.settle_ctl_station, s.settle_ctl_id, s.settle_ctl_nonce, s.settle_ctl_settings, s.settle_ctl_digest,
      s.settle_ctl_renewal, s.settle_ctl_lapsed, s.settle_ctl_window, s.settle_ctl_diverged, State.settle_holdOff,
      s.settle_ctl_table, fun k hk => s.settle_ctl_entry hk, s.settle_completions, fun b => (banks b).alone, fun b => ?_,
      fun b => (banks b).array⟩
    simpa only [Bank.mapUnit, Prod.mk.injEq] using (banks b).map
  case news =>
    have after : (s.withTurn b u).bank b = u.bank := State.withTurn_bank s b u
    unfold State.conclude
    rw [State.noteMap_eq, after]
    refine ⟨fun no => ?_, fun yes hb => ?_, fun yes hb => ?_⟩
    · rw [if_neg no]
      rfl
    · subst hb
      rw [if_pos yes]
      rfl
    · subst hb
      rw [if_pos yes]
      rfl

end Sys2Proof.Machine

/-! # Boundaries, failures and the passing of time

What a stop drops, what a failed head leaves and hands to the map unit, and what an idle step does. -/

namespace Sys2Proof.Machine

/-! ### An idle step (R25, R124, log entry 1) -/

/-- The bit that an idle step reads is the bit of a frame's end row. -/
theorem step_of_wire {s : State} (hp : s.pending = []) {b : Bool} {rest : List Bool} (hw : s.wire = b :: rest) :
    step s = exec (.frameEnd 0 [b]) { s with wire := rest } := by
  simp only [step, hp, State.idleStep, hw]
  rfl

theorem step_of_silence {s : State} (hp : s.pending = []) (hw : s.wire = []) : step s = .next s.tick := by
  simp only [step, hp, State.idleStep, hw]

/-- Settles O2: a bit that waits is read, and otherwise one unit of time passes for every timer that runs. -/
theorem idleStepLetsTimePass : Obligations.IdleStepLetsTimePass := by
  refine fun s hp => ⟨fun b rest hw => step_of_wire hp hw, fun hw hr => ?reset, fun hw hr => ?unit⟩
  case reset => rw [step_of_silence hp hw, State.tick, if_pos hr]
  case unit =>
    rw [step_of_silence hp hw, State.tick, if_neg (by simp [hr])]
    rfl

/-! ### Stops (R32, R66, R67) -/

/-- A PROGRAM or FINISH that has pulsed: what a stop of it has stores to drop for (R66, R67). -/
def Slot.hasWritten (sl : Slot) : Prop :=
  ((∃ w, sl.op = .program w) ∨ sl.op = .finish) ∧ sl.arrayTouched = true

namespace Bank

variable {bk : Bank} {sl : Slot} {behind : List Slot} {gate : Bool}

theorem stopStores_written (h : sl.hasWritten) : bk.stopStores sl = bk.dropStores := by
  obtain ⟨⟨w, ho⟩ | ho, ht⟩ := h <;> simp [Bank.stopStores, ho, ht]

theorem stopStores_unwritten (h : ¬ sl.hasWritten) : bk.stopStores sl = bk := by
  unfold Bank.stopStores
  split
  · rfl
  · rename_i w ho
    exact if_neg fun ht => h ⟨.inl ⟨w, ho⟩, ht⟩
  · rename_i ho
    exact if_neg fun ht => h ⟨.inr ho, ht⟩
  · rfl

theorem boundary_stop (h : sl.stopRequest = true) :
    bk.boundary sl gate = (bk.atRest.stopStores sl).endSlot sl .aborted noFlags := by
  simp [Bank.boundary, h]

theorem boundary_pause (h : sl.stopRequest = false) (hp : bk.pauseOrder = true) (hg : gate = false) :
    bk.boundary sl gate = Turn.of { bk.atRest with queue := updateTag sl.tag Slot.enterHeld bk.queue } := by
  simp [Bank.boundary, h, hp, hg]

theorem boundary_pulse (h : sl.stopRequest = false) (hp : bk.pauseOrder = false ∨ gate = true) :
    bk.boundary sl gate = Turn.of (bk.atRest.nextPulse sl) := by
  rcases hp with hp | hp <;> simp [Bank.boundary, h, hp]

end Bank

/-- Settles O24: a stop request first, then a pause order, then the next pulse. -/
theorem boundaryHonoursStopThenPause : Obligations.BoundaryHonoursStopThenPause := by
  intro bk sl gate rest
  refine ⟨fun hs ho ht => ?written, fun hs ho => ?unwritten, fun hs hp hg => Bank.boundary_pause hs hp hg,
    fun hs hp => Bank.boundary_pulse hs hp⟩
  case written =>
    rw [Bank.boundary_stop hs, Bank.stopStores_written ⟨ho, ht⟩]
    rfl
  case unwritten =>
    have none : ¬ sl.hasWritten := by
      rintro ⟨kind, ht⟩
      rcases ho with ⟨e, ho⟩ | ho
      · simp [ho] at kind
      · simp [ho] at ht
    rw [Bank.boundary_stop hs, Bank.stopStores_unwritten none]
    rfl

/-! ### Failures (R26, R64, R65, R74, R162) -/

theorem updateTag_head {sl : Slot} {behind : List Slot} (apart : ∀ x ∈ behind, x.tag ≠ sl.tag) (f : Slot → Slot) :
    updateTag sl.tag f (sl :: behind) = f sl :: behind := by
  have others : updateTag sl.tag f behind = behind := 
    (List.map_congr_left (g := id) fun x hx => if_neg (apart x hx)).trans (List.map_id _)
  exact congrArg₂ List.cons (if_pos rfl) others

/-- The slot as a failure leaves it (R26). -/
def Slot.failed (sl : Slot) (failure : Failure) : Slot :=
  { sl with state := .recording, stopRequest := false, failure := some failure }

theorem HostOp.cause_eq (op : HostOp) : op.cause = if op.code = 4#8 then .eraseFail else .programFail := by
  cases op <;> rfl

namespace Bank

variable {bk : Bank} {sl failed : Slot} {behind : List Slot} {failure : Failure}

theorem failStores_write (h : (∃ w, sl.op = .program w) ∨ sl.op = .finish) : bk.failStores sl = bk.dropStores := by
  obtain ⟨w, ho⟩ | ho := h <;> simp [Bank.failStores, ho]

theorem failStores_other (h : ¬ ((∃ w, sl.op = .program w) ∨ sl.op = .finish)) : bk.failStores sl = bk := by
  unfold Bank.failStores
  split
  · rfl
  · rename_i w ho
    exact absurd (.inl ⟨w, ho⟩) h
  · rename_i ho
    exact absurd (.inr ho) h
  · rfl

theorem failHead_eq (hq : bk.queue = sl :: behind) (apart : ∀ x ∈ behind, x.tag ≠ sl.tag) :
    bk.failHead sl failure = ({ bk.atRest.failStores sl with queue := sl.failed failure :: behind } : Bank).handOff sl := by
  have queue : (bk.atRest.failStores sl).queue = sl :: behind := by
    unfold Bank.failStores
    split <;> exact hq
  unfold Bank.failHead
  dsimp only
  rw [queue, updateTag_head apart]
  rfl

section HandOff

variable (hq : bk.queue = sl.failed failure :: behind)

include hq

theorem handOff_full (hn : 64 ≤ bk.retired.length) : bk.handOff sl =
    ⟨{ bk with queue := behind },
      [(sl.failed failure).finish failure.outcome (listFullFlag (decide (bk.mapState = .degraded)))]⟩ := by
  unfold Bank.handOff
  exact (if_pos hn).trans (Bank.endRecording_of_failure hq rfl rfl _)

theorem handOff_degraded (hn : bk.retired.length < 64) (hm : bk.mapState = .degraded) : bk.handOff sl =
    ⟨{ bk with queue := behind, retired := bk.retired ++ [⟨sl.block, sl.op.cause⟩] },
      [(sl.failed failure).finish failure.outcome mapDegradedFlag]⟩ := by
  unfold Bank.handOff
  rw [if_neg (show ¬ retiredLimit ≤ bk.retired.length from Nat.not_le_of_lt hn)]
  exact (if_pos hm).trans (Bank.endRecording_of_failure (by exact hq) rfl rfl _)

omit hq in
theorem handOff_listed (hn : bk.retired.length < 64) (hm : bk.mapState ≠ .degraded) : bk.handOff sl =
    ⟨{ bk with
        retired := bk.retired ++ [⟨sl.block, sl.op.cause⟩]
        internal := some ⟨if bk.nextMapPage < 64 then .mapUpdate 0 else .rewriteErase 0, false⟩ }, []⟩ := by
  unfold Bank.handOff
  rw [if_neg (show ¬ retiredLimit ≤ bk.retired.length from Nat.not_le_of_lt hn)]
  dsimp only
  rw [if_neg hm]
  by_cases hw : bk.nextMapPage < 64
  · rw [if_pos hw, if_pos (show bk.nextMapPage < mapPages from hw)]
    rfl
  · rw [if_neg hw, if_neg (show ¬ bk.nextMapPage < mapPages from hw)]
    rfl

end HandOff

end Bank

/-- Settles O30: the stores first, then the three cases of the hand-off. -/
theorem failureIsRecordedAndHandedOff : Obligations.FailureIsRecordedAndHandedOff := by
  intro bk sl behind failure hq apart _ writes failed entry
  have cause : entry = ⟨sl.block, sl.op.cause⟩ := congrArg (RetiredEntry.mk sl.block) sl.op.cause_eq.symm
  have handedOff (left : Bank) (hl : bk.atRest.failStores sl = left) :
      (64 ≤ left.retired.length → bk.failHead sl failure = ⟨{ left with queue := behind },
        [failed.finish failure.outcome (listFullFlag (decide (left.mapState = .degraded)))]⟩) ∧
      (left.retired.length < 64 → left.mapState = .degraded →
        bk.failHead sl failure = ⟨{ left with queue := behind, retired := left.retired ++ [entry] },
          [failed.finish failure.outcome mapDegradedFlag]⟩) ∧
      (left.retired.length < 64 → left.mapState ≠ .degraded →
        bk.failHead sl failure = ⟨{ left with
          queue := failed :: behind
          retired := left.retired ++ [entry]
          internal := some ⟨if left.nextMapPage < 64 then .mapUpdate 0 else .rewriteErase 0, false⟩ }, []⟩) := by
    rw [Bank.failHead_eq hq apart, hl, cause]
    exact ⟨fun hn => Bank.handOff_full (by rfl) (by exact hn), fun hn hm => Bank.handOff_degraded (by rfl) (by exact hn) hm,
      fun hn hm => Bank.handOff_listed (by exact hn) hm⟩
  by_cases w : writes
  · exact ⟨none, none, none, none, 0, .inl ⟨w, rfl, rfl, rfl, rfl, rfl⟩, handedOff _ (Bank.failStores_write w)⟩
  · exact ⟨bk.openBlock, bk.pendingSlot, bk.latch, bk.pass, bk.passPulses, .inr ⟨w, rfl, rfl, rfl, rfl, rfl⟩,
      handedOff _ (Bank.failStores_other w)⟩

end Sys2Proof.Machine

/-! # Posts and completion records

What the four posts ask for, which check of a post fails first, and what TAKE_COMPLETIONS returns. -/

namespace Sys2Proof.Machine

/-! ### The fields of a post (R21, R181) -/

theorem bankOf_eq (b : Byte) :
    bankOf b = if b.toNat ≤ 1 then some (if b = 0#8 then .zero else .one) else none := by
  unfold bankOf
  split
  · rename_i h
    subst h
    rfl
  · rename_i h0
    split
    · rename_i h1
      subst h1
      rfl
    · rename_i h1
      rw [if_neg]
      bv_omega

theorem wordLineOf_eq (w : Byte) : wordLineOf w = if w.toNat ≤ 63 then some w.toNat else none := by
  simp only [wordLineOf, blockWordLines, Nat.lt_succ_iff]

theorem positionOf_eq (p : Byte) : positionOf p =
    if p.toNat ≤ 2 then some (if p = 0#8 then .low else if p = 1#8 then .middle else .high) else none := by
  unfold positionOf
  split
  · rename_i h
    subst h
    rfl
  · split
    · rename_i h
      subst h
      rfl
    · rename_i h0 h1
      split
      · rename_i h2
        subst h2
        rfl
      · rw [if_neg]
        bv_omega

theorem postTarget_some (bank hi lo : Byte) (op : HostOp) : postTarget bank hi lo (some op) =
    if bank.toNat ≤ 1 ∧ hi.toNat * 256 + lo.toNat ≤ 2045 then
      some ((if bank = 0#8 then .zero else .one), hi.toNat * 256 + lo.toNat, op)
    else none := by
  simp only [postTarget, bankOf_eq, be16, hostBlocks]
  by_cases hb : bank.toNat ≤ 1
  · simp only [hb, if_true, true_and, Nat.lt_succ_iff]
  · simp only [hb, if_false, false_and]

@[simp] theorem postTarget_none (bank hi lo : Byte) : postTarget bank hi lo none = none := by
  cases hb : bankOf bank <;> simp [postTarget, hb]

/-! ### The checks of a post (R21) -/

/-- Each of the four posts is a transaction that makes the checks of a post. -/
theorem exec_post {c : Instr} {p : Option Post} (h : postOf c = some p) (s : State) :
    exec c s = s.transaction fun s => s.post p := by
  cases c <;> cases h <;> rfl

theorem exec_post_ready {c : Instr} {p : Option Post} (h : postOf c = some p) {s : State} (hr : s.ready = true) :
    exec c s = .next (s.post p) :=
  (exec_post h s).trans (State.transaction_ready hr _)

namespace State

variable {s : State} {p : Post} {b : BankId} {block : Nat} {op : HostOp}

theorem post_badAddress (ht : p.target = none) : s.post (some p) = s.answer .badAddress := by
  simp [State.post, ht]

theorem post_tagInUse (ht : p.target = some (b, block, op)) (used : p.tag ∈ s.tagsInUse) :
    s.post (some p) = s.answer .tagInUse := by
  simp [State.post, ht, used]

theorem post_noSlot (ht : p.target = some (b, block, op)) (new : p.tag ∉ s.tagsInUse) (full : 8 ≤ s.slotsInUse) :
    s.post (some p) = s.answer .noSlot := by
  simp [State.post, ht, new, slotLimit, full]

theorem post_queueFull (ht : p.target = some (b, block, op)) (new : p.tag ∉ s.tagsInUse) (few : s.slotsInUse < 8)
    (full : 6 ≤ (s.bank b).queue.length) : s.post (some p) = s.answer .queueFull := by
  simp [State.post, ht, new, slotLimit, Nat.not_le_of_lt few, queueLimit, full]

theorem post_accepted (ht : p.target = some (b, block, op)) (new : p.tag ∉ s.tagsInUse) (few : s.slotsInUse < 8)
    (short : (s.bank b).queue.length < 6) :
    s.post (some p) = (s.withPosted b (Slot.posted p.tag op b block)).settle.answer .accepted := by
  simp [State.post, ht, new, slotLimit, Nat.not_le_of_lt few, queueLimit, Nat.not_le_of_lt short, State.enqueue_eq]

end State

/-- Settles O9: the fields one by one, and the checks in their order. -/
theorem postsAreReadAndCheckedInOrder : Obligations.PostsAreReadAndCheckedInOrder := by
  refine ⟨fun tag bank hi lo w p => ?fields, fun c s hr => ?checks⟩
  case fields =>
    intro target
    have some_target (op : HostOp) : postTarget bank hi lo (some op) = target op := postTarget_some bank hi lo op
    have asked (op : HostOp) : some (some (Post.mk tag (postTarget bank hi lo (some op)))) = some (some ⟨tag, target op⟩) := by
      rw [some_target]
    refine ⟨?read, ?program, asked .finish, ?erase⟩
    case read =>
      simp only [postOf, readPost, wordLineOf_eq, positionOf_eq]
      by_cases hw : w.toNat ≤ 63 <;> by_cases hp : p.toNat ≤ 2 <;> simp [hw, hp, some_target]
    case program =>
      simp only [postOf, programPost, wordLineOf_eq]
      by_cases hw : w.toNat ≤ 63 <;> simp [hw, some_target]
    case erase =>
      have flag : (w != 0#8) = decide (w ≠ 0#8) := by rw [Bool.eq_iff_iff]; simp
      rw [← flag]
      exact asked _
  case checks =>
    intro refused
    refine ⟨fun h => exec_post_ready h hr, fun p h => ⟨fun ht => ?_, fun b block op ht => ⟨fun used => ?_,
      fun new full => ?_, fun new few full => ?_⟩⟩⟩ <;>
    refine (exec_post_ready h hr).trans (congrArg Host.Outcome.next ?_)
    · exact State.post_badAddress ht
    · exact State.post_tagInUse ht used
    · exact State.post_noSlot ht new full
    · exact State.post_queueFull ht new few full

/-! ### Completion records (R27, R29, R182) -/

/-- The flags byte of a record, bit by bit (R182). -/
theorem RecordFlags.byte_eq (f : RecordFlags) : f.byte =
    (if f.fromPending then 1#8 else 0#8) ||| (if f.mapWritten then 2#8 else 0#8) |||
      (if f.listFull then 4#8 else 0#8) ||| (if f.mapDegraded then 8#8 else 0#8) |||
      (if f.budgetWaited then 16#8 else 0#8) ||| (if f.arrayTouched then 32#8 else 0#8) := by
  obtain ⟨a, b, c, d, e, g⟩ := f
  unfold RecordFlags.byte
  dsimp only
  revert a b c d e g
  decide

/-- The 13 bytes of a record, each by the field it carries (R182). -/
theorem Completion.bytes_eq (r : Completion) : r.bytes =
    [r.tag, r.op.code, bankCode r.bank, BitVec.ofNat 8 (r.block / 256), BitVec.ofNat 8 r.block,
      optByte 0xFF#8 r.op.wordLine?, optByte 0xFF#8 r.op.position?, r.outcome.code, failedPassCode r.failedPass,
      optByte 0xFF#8 r.failedWordLine, BitVec.ofNat 8 r.pulses, optByte 0xFF#8 r.suspensions?, r.flags.byte] := rfl

theorem Completion.bytes_length (r : Completion) : r.bytes.length = 13 := rfl

theorem oneByte_none {params : List Byte} (h : params.length ≠ 1) : oneByte params = none := by
  unfold oneByte
  split
  · exact absurd rfl h
  · rfl

theorem execTakeCompletions_badLength {s : State} (hr : s.ready = true) {params : List Byte} (h : params.length ≠ 1) :
    exec (.takeCompletions params) s = .next (s.answer .badLength) := by
  show execTakeCompletions params s = _
  rw [execTakeCompletions, State.transaction_ready hr, oneByte_none h]

theorem execTakeCompletions_badValue {s : State} (hr : s.ready = true) {n : Byte} (h : n.toNat = 0 ∨ 8 < n.toNat) :
    exec (.takeCompletions [n]) s = .next (s.answer .badValue) := by
  show execTakeCompletions [n] s = _
  rw [execTakeCompletions, State.transaction_ready hr]
  exact congrArg Host.Outcome.next (if_pos h)

/-- The oldest records leave the completion queue and are returned (R29). -/
theorem execTakeCompletions_taken {s : State} (hr : s.ready = true) {n : Byte} (h1 : 1 ≤ n.toNat) (h8 : n.toNat ≤ 8) :
    exec (.takeCompletions [n]) s = .next (({ s with completions := s.completions.drop n.toNat } : State).answerData
      (completionBytes (s.completions.take n.toNat))) := by
  have inRange : ¬ (n.toNat = 0 ∨ 8 < n.toNat) := by omega
  show execTakeCompletions [n] s = _
  rw [execTakeCompletions, State.transaction_ready hr]
  exact congrArg Host.Outcome.next (if_neg inRange)

/-- A record that is taken makes its slot FREE: its tag is in use no longer (R20, R28). -/
theorem State.Table.taken_tag_free {s : State} (hs : s.Table) {n : Nat} {d : DoneSlot} (hd : d ∈ s.completions.take n) :
    d.slot.tag ∉ ({ s with completions := s.completions.drop n } : State).tagsInUse := by
  intro used
  rcases State.mem_tagsInUse.1 used with ⟨b, sl, hm, same⟩ | ⟨d', hd', same⟩
  · exact hs.ne_of_completed (List.mem_of_mem_take hd) (b := b) hm same
  · have distinct := (List.nodup_append.1 hs.distinct).2.1
    rw [← List.take_append_drop n s.completions, List.map_append] at distinct
    exact (List.nodup_append.1 distinct).2.2 _ (List.mem_map_of_mem hd) _ (List.mem_map_of_mem hd') same.symm

/-- Settles O12: the answers by the count, and the record's bytes by the kind and the fields. -/
theorem takeCompletionsReturnsTheOldestRecords : Obligations.TakeCompletionsReturnsTheOldestRecords := by
  refine fun s n hr => ⟨fun params h => execTakeCompletions_badLength hr h, fun h => execTakeCompletions_badValue hr h,
    fun h1 h8 => ?taken, fun r => ?bytes, fun sl outcome f => ?record, rfl, rfl, rfl, rfl, fun d => rfl⟩
  case taken =>
    have taken := execTakeCompletions_taken hr h1 h8
    refine ⟨s.completions.take n.toNat, s.completions.drop n.toNat, (List.take_append_drop _ _).symm, List.length_take,
      taken, fun d _ => d.record.bytes_length, fun sound d hd t ht => ?_⟩
    cases taken.symm.trans ht
    exact (State.tableSound_iff.1 sound).taken_tag_free hd
  case bytes =>
    rw [Completion.bytes_eq, RecordFlags.byte_eq]
    simp only [List.cons.injEq, and_true, true_and, Completion.suspensions?]
    refine ⟨?kind, ?bank, ?wordLine, ?position, ?outcome, ?pass, ?failedWordLine, ?suspensions⟩
    case kind => cases r.op <;> rfl
    case bank => cases r.bank <;> rfl
    case wordLine => cases r.op <;> rfl
    case position =>
      cases r.op with
      | read w p => cases p <;> rfl
      | program w => rfl
      | finish => rfl
      | erase e => rfl
    case outcome => cases r.outcome <;> rfl
    case pass =>
      cases r.failedPass with
      | none => rfl
      | some k => cases k <;> rfl
    case failedWordLine => cases r.failedWordLine <;> rfl
    case suspensions => cases r.op <;> rfl
  case record =>
    cases hf : sl.failure <;> simp [Slot.finish, Slot.record, Slot.recordFlags, hf]

end Sys2Proof.Machine

/-! # Slots over a change that is settled

A running bank's queue, the slot of an idle bank's only operation, and a READ that waits for the output buffer. -/

namespace Sys2Proof.Machine

/-! ### The array, and a running bank's queue -/

/-- Where a change leaves the arrays and keeps running banks running, an array changes only in a bank that comes to run. -/
theorem State.settle_array {s u : State} (same : ∀ k, (u.bank k).array = (s.bank k).array)
    (runs : ∀ k, (s.bank k).isRunning = true → (u.bank k).isRunning = true) {k : BankId}
    (h : (s.bank k).isRunning = true ∨ (u.settle.bank k).isRunning = false) :
    (u.settle.bank k).array = (s.bank k).array := by
  have settles := State.BanksSettle.settle u k
  rcases h with run | rest
  · obtain ⟨q, order, left, -⟩ := settles.alone (runs k run)
    rw [left]
    exact same k
  · exact (settles.array rest).trans (same k)

theorem Bank.isRunning_append {bk : Bank} (h : bk.isRunning = true) (x : Slot) :
    ({ bk with queue := bk.queue ++ [x] } : Bank).isRunning = true := by
  rcases Bank.isRunning_iff.1 h with begun | ⟨hi, sl, behind, hq, run⟩
  · exact Bank.isRunning_iff.2 (.inl begun)
  · refine Bank.isRunning_iff.2 (.inr ⟨hi, sl, behind ++ [x], by simp [hq], run.imp id ?_⟩)
    rintro ⟨hs, r, hr, hrs⟩
    exact ⟨hs, r, by simp [overtaker, List.find?_append, show List.find? _ behind = some r from hr], hrs⟩

namespace State

variable {s : State} {b : BankId}

theorem withTurn_bank_ne (s : State) {b k : BankId} (h : k ≠ b) (v : Turn) : (s.withTurn b v).bank k = s.bank k := by
  cases b <;> cases k
  exacts [absurd rfl h, rfl, rfl, absurd rfl h]

theorem setBank_bank_ne (s : State) {b k : BankId} (h : k ≠ b) (bk : Bank) : (s.setBank b bk).bank k = s.bank k := by
  cases b <;> cases k
  exacts [absurd rfl h, rfl, rfl, absurd rfl h]

theorem noteWaiting_bank (s : State) (b : BankId) : s.noteWaiting.bank b = (s.bank b).noteWaiting := by cases b <;> rfl

theorem tendTransmit_bank (s : State) (b : BankId) : s.tendTransmit.bank b = s.bank b := by
  cases b
  exacts [State.tendTransmit_bank0 s, State.tendTransmit_bank1 s]

theorem soloClaim_bank (s : State) (b : BankId) : s.soloClaim.bank b = s.bank b := by
  cases b
  exacts [State.soloClaim_bank0 s, State.soloClaim_bank1 s]

theorem orderPause_queue (s : State) (k b : BankId) : ((s.orderPause k).bank b).queue = (s.bank b).queue := by
  unfold State.orderPause
  split
  · by_cases same : b = k
    · subst same
      rw [State.setBank_bank]
    · rw [setBank_bank_ne s same]
  · rfl

theorem advanceBank_bank_ne (s : State) {b k : BankId} (h : k ≠ b) : (s.advanceBank b).bank k = s.bank k :=
  withTurn_bank_ne s h _

theorem advanceBank_bank_of_running (h : (s.bank b).isRunning = true) (k : BankId) :
    (s.advanceBank k).bank b = s.bank b := by
  by_cases same : b = k
  · subst same
    rw [State.advanceBank_of_rest (Bank.advanceStep_of_running h)]
  · exact advanceBank_bank_ne s same

theorem tryBank_bank_of_running (h : (s.bank b).isRunning = true) (k : BankId) : (s.tryBank k).bank b = s.bank b := by
  rcases s.tryBank_cases k with same | ⟨waits, -, tried⟩
  · rw [same]
  · have other : b ≠ k := by
      rintro rfl
      simp [Bank.isWaiting, h] at waits
    rw [tried, setBank_bank_ne s other]

theorem tryBanks_bank_of_running (h : (s.bank b).isRunning = true) : s.tryBanks.bank b = s.bank b := by
  have first := tryBank_bank_of_running h .zero
  unfold State.tryBanks
  rw [tryBank_bank_of_running (by rw [first]; exact h), first]

/-- Of a running bank's queue settling only notes what waits. -/
theorem settle_queue_of_running (h : (s.bank b).isRunning = true) :
    (s.settle.bank b).queue = (s.bank b).noteWaiting.queue := by
  have advanced : s.advanceBanks.bank b = s.bank b := by
    have first := advanceBank_bank_of_running h .zero
    unfold State.advanceBanks
    rw [advanceBank_bank_of_running (by rw [first]; exact h), first]
  have admitted : s.advanceBanks.admitAll.bank b = s.bank b := by
    have first := tryBanks_bank_of_running (s := s.advanceBanks) (b := b) (by rw [advanced]; exact h)
    have claimed : s.advanceBanks.tryBanks.soloClaim.bank b = s.bank b := by rw [soloClaim_bank, first, advanced]
    unfold State.admitAll
    rw [tryBanks_bank_of_running (by rw [claimed]; exact h), claimed]
  unfold State.settle State.orderPauses
  rw [tendTransmit_bank, orderPause_queue, orderPause_queue, noteWaiting_bank, admitted]

end State

/-- In a bank whose front runs and whose queue is well shaped, no slot of the queue is WAITING. -/
theorem Bank.not_waiting_of_running {bk : Bank} (shaped : bk.queueShaped = true) (run : bk.isRunning = true)
    (hi : bk.internal = none) : ∀ x ∈ bk.queue, x.state ≠ .waiting := by
  have queuedOnly {q : List Slot} (all : q.all Slot.isQueued = true) : ∀ x ∈ q, x.state = .queued := by
    simpa [Slot.isQueued] using all
  rcases Bank.isRunning_iff.1 run with ⟨i, hi', -⟩ | ⟨-, sl, behind, hq, front⟩
  · exact absurd (hi.symm.trans hi') nofun
  · have fits : frontShaped sl behind = true := by simpa [Bank.queueShaped, hi, hq] using shaped
    rw [hq]
    intro x hx
    rcases front with hs | ⟨hs, r, hr, hrs⟩
    · simp only [frontShaped, hs, Bool.and_eq_true] at fits
      rcases List.mem_cons.1 hx with rfl | hx
      · simp [hs]
      · simp [queuedOnly fits.1 x hx]
    · simp only [frontShaped, hs, oneOvertakes, Bool.and_eq_true, decide_eq_true_eq] at fits
      obtain ⟨-, one, -⟩ := fits
      rcases List.mem_cons.1 hx with rfl | hx
      · simp [hs]
      · intro hw
        obtain ⟨y, only⟩ := List.length_eq_one_iff.1 one
        have alone {z : Slot} (hz : z ∈ behind) (hn : z.state ≠ .queued) : z = y := by
          have : z ∈ behind.filter fun sl => !sl.isQueued := List.mem_filter.2 ⟨hz, by simp [Slot.isQueued, hn]⟩
          rw [only] at this
          exact List.mem_singleton.1 this
        have same : x = r := (alone hx (by simp [hw])).trans (alone (mem_of_overtaker hr) (by simp [hrs])).symm
        rw [same, hrs] at hw
        cases hw

theorem Slot.noteWaiting_of_not_waiting {sl : Slot} (h : sl.state ≠ .waiting) : sl.noteWaiting = sl :=
  if_neg fun ⟨hw, _⟩ => h hw

/-- Noting what waits leaves a running bank's queue where no slot is WAITING. -/
theorem Bank.noteWaiting_queue_of_running {bk : Bank} (run : bk.isRunning = true)
    (none : bk.internal = none → ∀ x ∈ bk.queue, x.state ≠ .waiting) : bk.noteWaiting.queue = bk.queue := by
  rcases Bank.Settles.noteWaiting_cases bk with same | noted | ⟨hi, sl, behind, hq, hs, no, resumed⟩
  · rw [same]
  · by_cases hi : bk.internal = Option.none
    · rw [noted]
      exact (List.map_congr_left (g := id) fun x hx => Slot.noteWaiting_of_not_waiting (none hi x hx)).trans (List.map_id _)
    · have same : bk.noteWaiting = bk := if_pos (Option.isSome_iff_ne_none.2 hi)
      rw [same]
  · obtain ⟨q, order, left, hq'⟩ := (Bank.Settles.noteWaiting bk).alone run
    have states := congrArg (List.map Slot.state) hq'
    rw [left] at resumed
    obtain rfl : q = sl.enterHeld :: behind := congrArg Bank.queue resumed
    simp [hq, Slot.clearWaited, Slot.enterHeld, hs] at states

/-! ### What an admission makes of a queue -/

/-- What the gate lets go on makes one slot RUNNING that was WAITING, HELD, SUSPENDED or RUNNING, or leaves the queue. -/
theorem Bank.proceed_queue (bk : Bank) : bk.proceed.queue = bk.queue ∨
    ∃ y ∈ bk.queue, (y.state = .waiting ∨ y.state = .held ∨ y.state = .suspended ∨ y.state = .running) ∧
      ∃ f : Slot → Slot, (∀ x, (f x).state = .running) ∧ bk.proceed.queue = updateTag y.tag f bk.queue := by
  rcases bk.proceed_cases with same | ⟨i, -, same⟩ | ⟨-, sl, behind, hq, hs, -, runs⟩ | ⟨-, sl, behind, hq, -, r, hr, -, runs⟩
  · exact .inl (congrArg Bank.queue same)
  · left
    rw [same]
    cases i.op <;> rfl
  · exact .inr ⟨sl, head_mem hq, hs.imp_right (.imp_right .inl), runs⟩
  · refine .inr ⟨r, behind_mem hq (mem_of_overtaker hr), ?_, runs⟩
    exact (overtaker_state hr).imp_right fun run => .inr (.inr run)

/-! ### The only operation of a bank -/

/-- No slot of the bank's queue is QUEUED. -/
def Bank.NoneQueued (bk : Bank) : Prop := ∀ x ∈ bk.queue, x.state ≠ .queued

namespace Bank.NoneQueued

variable {bk : Bank}

/-- A bank that rests with at most one operation and none of its own ahead has brought it past its start point. -/
theorem of_rest (hi : bk.internal = none) (few : bk.queue.length ≤ 1) (rests : bk.advanceStep = none) : bk.NoneQueued := by
  intro x hx hs
  match hq : bk.queue with
  | [] => rw [hq] at hx; cases hx
  | [y] =>
    obtain rfl : x = y := by rw [hq] at hx; exact List.mem_singleton.1 hx
    simp [Bank.advanceStep, hi, hq, hs] at rests
  | y :: z :: more => rw [hq] at few; simp at few

theorem proceed (h : bk.NoneQueued) : bk.proceed.NoneQueued := by
  rcases bk.proceed_queue with same | ⟨y, -, -, f, hf, hq⟩
  · exact fun x hx => h x (same ▸ hx)
  · intro x hx
    rw [hq] at hx
    obtain ⟨z, hz, rfl⟩ := List.mem_map.1 hx
    split
    · simp [hf]
    · exact h z hz

theorem noteWaiting (h : bk.NoneQueued) : bk.noteWaiting.NoneQueued := by
  rcases Bank.Settles.noteWaiting_cases bk with same | noted | ⟨-, sl, behind, hq, -, -, resumed⟩
  · exact same.symm ▸ h
  · rw [noted]
    intro x hx
    obtain ⟨z, hz, rfl⟩ := List.mem_map.1 hx
    have state : z.noteWaiting.state = z.state := by
      unfold Slot.noteWaiting
      split <;> rfl
    exact state ▸ h z hz
  · rw [resumed]
    intro x hx
    rcases List.mem_cons.1 hx with rfl | hx
    · exact nofun
    · exact h x (behind_mem hq hx)

end Bank.NoneQueued

theorem State.tryBank_noneQueued {s : State} {b : BankId} (h : (s.bank b).NoneQueued) (k : BankId) :
    ((s.tryBank k).bank b).NoneQueued := by
  rcases s.tryBank_cases k with same | ⟨-, -, tried⟩
  · exact same.symm ▸ h
  · rw [tried]
    by_cases same : b = k
    · subst same
      exact (State.setBank_bank s b _).symm ▸ h.proceed
    · exact (State.setBank_bank_ne s same _).symm ▸ h

/-- Once the front of a bank rests with no QUEUED slot, settling leaves none. -/
theorem State.settle_noneQueued {s : State} {b : BankId} (h : (s.advanceBanks.bank b).NoneQueued) :
    (s.settle.bank b).NoneQueued := by
  have tried {x : State} (hx : (x.bank b).NoneQueued) : (x.tryBanks.bank b).NoneQueued :=
    State.tryBank_noneQueued (State.tryBank_noneQueued hx .zero) .one
  have claimed : (s.advanceBanks.tryBanks.soloClaim.bank b).NoneQueued := by
    rw [State.soloClaim_bank]
    exact tried h
  have noted := (tried claimed).noteWaiting
  unfold State.settle State.orderPauses State.admitAll
  intro x hx
  rw [State.tendTransmit_bank, State.orderPause_queue, State.orderPause_queue, State.noteWaiting_bank] at hx
  exact noted x hx

/-! ### A READ that waits for the output buffer (R42) -/

/-- A slot in OUTPUT_WAIT in a bank of a sound table whose output buffer is held. -/
structure State.AwaitsOutput (s : State) (b : BankId) (x : Slot) : Prop where
  table : s.Table
  held : (s.bank b).outputFree = false
  mem : x ∈ (s.bank b).queue
  state : x.state = .outputWait

namespace State.AwaitsOutput

variable {s t : State} {b : BankId} {x : Slot}

/-- Another slot's tag is another tag. -/
theorem tag_ne (h : s.AwaitsOutput b x) {y : Slot} (hy : y ∈ (s.bank b).queue) (hs : y.state ≠ .outputWait) :
    x.tag ≠ y.tag := fun same => hs (eq_of_tag_eq (h.table.queue_distinct b) h.mem hy same ▸ h.state)

theorem next (h : s.AwaitsOutput b x) (keeps : s.KeepsTable t) (settles : s.BanksSettle t)
    (mem : x ∈ (t.bank b).queue) : t.AwaitsOutput b x := by
  refine ⟨keeps.table h.table, ?_, mem, h.state⟩
  have same := ((settles b).held h.held).1
  rw [Bank.outputFree, same]
  exact h.held

theorem startPoint_mem {bk : Bank} {sl : Slot} (hx : x ∈ bk.queue) (other : x.tag ≠ sl.tag) :
    x ∈ (bk.startPoint sl).bank.queue := by
  unfold Bank.startPoint
  split
  · exact mem_removeTag.2 ⟨hx, other⟩
  · exact mem_updateTag_other hx other _

/-- While the buffer is held only start points follow, and those are other slots'. -/
theorem advance_mem {tags : List Byte} (n : Nat) {v : Turn} (sound : v.Accounts b tags)
    (hold : v.bank.outputFree = false) (hx : x ∈ v.bank.queue) (hs : x.state = .outputWait) :
    x ∈ (Bank.advance n v).bank.queue := by
  induction n generalizing v tags with
  | zero => exact hx
  | succ n ih =>
    cases hu : v.bank.advanceStep with
    | none => rw [Bank.advance_of_rest hu]; exact hx
    | some u =>
      have sound' := Accounted.advanceStep (bk := v.bank) sound.rest hu
      have hold' : u.bank.outputFree = false := by
        rw [Bank.outputFree, ((Bank.Settles.advanceStep hu).held hold).1]
        exact hold
      obtain ⟨sl, behind, hq, hsl, rfl⟩ := Bank.advanceStep_held hold hu
      have other : x.tag ≠ sl.tag := fun same => by
        rw [eq_of_tag_eq sound.queue_distinct hx (head_mem hq) same, hsl] at hs
        cases hs
      rw [Bank.advance_succ hu]
      exact ih (v := ⟨_, _⟩) (sound.andThen sound') hold' (startPoint_mem hx other)

theorem advanceBank (h : s.AwaitsOutput b x) (k : BankId) : (s.advanceBank k).AwaitsOutput b x := by
  refine h.next (.advanceBank s k) (.advanceBank s k) ?_
  by_cases same : b = k
  · subst same
    unfold State.advanceBank
    rw [State.withTurn_bank]
    exact advance_mem (v := Turn.of _) _ (h.table.accounts b) h.held h.mem h.state
  · rw [State.advanceBank_bank_ne s same]
    exact h.mem

theorem tryBank (h : s.AwaitsOutput b x) (k : BankId) : (s.tryBank k).AwaitsOutput b x := by
  refine h.next (.tryBank s k) (.tryBank s k) ?_
  rcases s.tryBank_cases k with same | ⟨-, -, tried⟩
  · rw [same]
    exact h.mem
  · rw [tried]
    by_cases same : b = k
    · subst same
      rw [State.setBank_bank]
      rcases (s.bank b).proceed_queue with kept | ⟨y, hy, hs, f, -, hq⟩
      · exact kept.symm ▸ h.mem
      · rw [hq]
        exact mem_updateTag_other h.mem (h.tag_ne hy (by rcases hs with hs | hs | hs | hs <;> simp [hs])) f
    · rw [State.setBank_bank_ne s same]
      exact h.mem

theorem soloClaim (h : s.AwaitsOutput b x) : s.soloClaim.AwaitsOutput b x := by
  refine h.next (.soloClaim s) (.of_same (State.soloClaim_bank0 s) (State.soloClaim_bank1 s)) ?_
  rw [State.soloClaim_bank]
  exact h.mem

theorem noteWaiting (h : s.AwaitsOutput b x) : s.noteWaiting.AwaitsOutput b x := by
  refine h.next (.noteWaiting s) (.noteWaiting s) ?_
  rw [State.noteWaiting_bank]
  rcases Bank.Settles.noteWaiting_cases (s.bank b) with same | noted | ⟨-, sl, behind, hq, hs, -, resumed⟩
  · exact same.symm ▸ h.mem
  · rw [noted]
    exact List.mem_map.2 ⟨x, h.mem, Slot.noteWaiting_of_not_waiting (by simp [h.state])⟩
  · rw [resumed]
    have mem := h.mem
    rw [hq] at mem
    rcases List.mem_cons.1 mem with rfl | mem
    · exact absurd (h.state.symm.trans hs) nofun
    · exact List.mem_cons_of_mem _ mem

/-- Settling leaves the READ waiting as it stands. -/
theorem settle_mem (h : s.AwaitsOutput b x) : x ∈ (s.settle.bank b).queue := by
  have admitted := ((((((h.advanceBank .zero).advanceBank .one).tryBank .zero).tryBank .one).soloClaim.tryBank
    .zero).tryBank .one).noteWaiting
  unfold State.settle State.orderPauses
  rw [State.tendTransmit_bank, State.orderPause_queue, State.orderPause_queue]
  exact admitted.mem

end State.AwaitsOutput

end Sys2Proof.Machine

/-! # Accepted posts and start points

A post's operation joins its queue and the change is settled; a head operation's start point follows the first check that
fails. -/

namespace Sys2Proof.Machine

theorem State.withLink_bank (s : State) (l : Link) (b : BankId) : ({ s with link := l } : State).bank b = s.bank b := by
  cases b <;> rfl

theorem State.withLink_slotsInUse (s : State) (l : Link) : ({ s with link := l } : State).slotsInUse = s.slotsInUse := rfl

theorem State.settle_answer {s u : State} (h : u.link = s.link) (r : Response) :
    u.settle.answer r = { u.settle with link := { s.link with response := [r.code] } } := by
  unfold State.answer
  rw [State.settle_link, h]

/-! ### Start points (R24, R25, R35, R55, R62) -/

namespace Bank

variable {bk : Bank} {sl : Slot} {behind : List Slot} {w : Nat}

theorem isRetired_iff {block : Nat} : bk.isRetired block = true ↔ ∃ e ∈ bk.retired, e.block = block := by
  simp [Bank.isRetired]

/-- A QUEUED head with no internal operation ahead reaches its start point. -/
theorem advanceStep_queued (hi : bk.internal = none) (hq : bk.queue = sl :: behind) (hs : sl.state = .queued) :
    bk.advanceStep = some (bk.startPoint sl) := by
  simp [Bank.advanceStep, hi, hq, hs]

theorem startPoint_ends {o : OpOutcome} (h : bk.startCheck sl = some o) : bk.startPoint sl = bk.endSlot sl o noFlags := by
  simp [Bank.startPoint, h]

/-- The head of a tag of its own that passes its checks is WAITING with its path fixed. -/
theorem startPoint_waits (h : bk.startCheck sl = none) (hq : bk.queue = sl :: behind)
    (apart : ∀ x ∈ behind, x.tag ≠ sl.tag) : bk.startPoint sl =
      ⟨{ bk with queue := bk.queue.map fun x =>
        if x.tag = sl.tag then { x with state := .waiting, waitTime := 0, path := bk.pathOf sl } else x }, []⟩ := by
  have queue : updateTag sl.tag (fun x => { x.enterWaiting with path := bk.pathOf x }) bk.queue =
      updateTag sl.tag (fun x => { x.enterWaiting with path := bk.pathOf sl }) bk.queue := by
    rw [hq, updateTag_head apart, updateTag_head apart]
  unfold Bank.startPoint
  rw [h]
  dsimp only
  rw [queue]
  rfl

theorem startCheck_read {p : Position} (ho : sl.op = .read w p) : bk.startCheck sl = none := by
  simp [Bank.startCheck, ho]

/-- The checks of the kinds that write, once the block is not retired and the map is not LOST. -/
def kindCheck (bk : Bank) (sl : Slot) : Option OpOutcome :=
  match sl.op with
  | .read _ _ => none
  | .program w => bk.programCheck sl.block w
  | .finish => bk.finishCheck sl.block
  | .erase _ => none

theorem startCheck_eq (h : sl.isRead = false) : bk.startCheck sl = bk.writeCheck sl.block (bk.kindCheck sl) := by
  cases ho : sl.op with
  | read w p => simp [Slot.isRead, ho] at h
  | program w => simp [Bank.startCheck, Bank.kindCheck, ho]
  | finish => simp [Bank.startCheck, Bank.kindCheck, ho]
  | erase e => simp [Bank.startCheck, Bank.kindCheck, ho]

theorem startCheck_retired (h : sl.isRead = false) (hr : ∃ e ∈ bk.retired, e.block = sl.block) :
    bk.startCheck sl = some .retired := by
  rw [startCheck_eq h]
  exact if_pos (isRetired_iff.2 hr)

theorem startCheck_mapLost (h : sl.isRead = false) (hr : ¬ ∃ e ∈ bk.retired, e.block = sl.block)
    (hm : bk.mapState = .lost) : bk.startCheck sl = some .mapLost := by
  rw [startCheck_eq h]
  exact (if_neg (mt isRetired_iff.1 hr)).trans (if_pos hm)

theorem startCheck_kind (h : sl.isRead = false) (hr : ¬ ∃ e ∈ bk.retired, e.block = sl.block)
    (hm : bk.mapState ≠ .lost) : bk.startCheck sl = bk.kindCheck sl := by
  rw [startCheck_eq h]
  exact (if_neg (mt isRetired_iff.1 hr)).trans (if_neg hm)

theorem stagingCheck_loaded
    (h : bk.staging.low.loaded = true ∧ bk.staging.middle.loaded = true ∧ bk.staging.high.loaded = true) :
    bk.stagingCheck = none := by
  simp [Bank.stagingCheck, h]

theorem stagingCheck_incomplete
    (h : ¬ (bk.staging.low.loaded = true ∧ bk.staging.middle.loaded = true ∧ bk.staging.high.loaded = true)) :
    bk.stagingCheck = some .stagingIncomplete := by
  simp only [Bank.stagingCheck, Bool.and_eq_true, and_assoc, h, if_false]

theorem programCheck_busy {r : OpenBlock} {block : Nat} (ho : bk.openBlock = some r) (hr : r.block ≠ block) :
    bk.programCheck block 0 = some .openBlockBusy := by
  simp [Bank.programCheck, ho, hr]

theorem programCheck_reopened {r : OpenBlock} {block : Nat} (ho : bk.openBlock = some r) (hr : r.block = block) :
    bk.programCheck block 0 = some .orderError := by
  simp [Bank.programCheck, ho, hr]

theorem programCheck_notOpen {block : Nat} (hw : 1 ≤ w) (h : ∀ r, bk.openBlock = some r → r.block ≠ block) :
    bk.programCheck block w = some .notOpen := by
  unfold Bank.programCheck
  rw [if_neg (Nat.ne_of_gt hw)]
  cases ho : bk.openBlock with
  | none => rfl
  | some r => exact if_pos (h r ho)

theorem programCheck_outOfOrder {r : OpenBlock} {block : Nat} (hw : 1 ≤ w) (ho : bk.openBlock = some r)
    (hr : r.block = block) (hn : r.next ≠ w) : bk.programCheck block w = some .orderError := by
  simp [Bank.programCheck, Nat.ne_of_gt hw, ho, hr, hn]

/-- A PROGRAM that opens a block, or goes on with the open one, has only its staging buffer left to check. -/
theorem programCheck_staging {block : Nat}
    (h : w = 0 ∧ bk.openBlock = none ∨ 1 ≤ w ∧ bk.openBlock = some ⟨block, w⟩) :
    bk.programCheck block w = bk.stagingCheck := by
  rcases h with ⟨rfl, ho⟩ | ⟨hw, ho⟩
  · simp [Bank.programCheck, ho]
  · simp [Bank.programCheck, Nat.ne_of_gt hw, ho]

theorem finishCheck_notOpen {block : Nat} (h : ∀ r, bk.openBlock = some r → r.block ≠ block) :
    bk.finishCheck block = some .notOpen :=
  if_neg fun opened => by
    obtain ⟨r, ho, hr⟩ := Bank.opens_iff.1 opened
    exact h r ho hr

theorem finishCheck_open {r : OpenBlock} {block : Nat} (ho : bk.openBlock = some r) (hr : r.block = block) :
    bk.finishCheck block = none :=
  if_pos (Bank.opens_iff.2 ⟨r, ho, hr⟩)

/-- The pending path is taken exactly where the pending slot names the word line (R35). -/
theorem readPath_pending {block : Nat} (h : ∃ pages, bk.pendingSlot = some ⟨block, w, pages⟩) :
    bk.readPath block w = .pending := by
  obtain ⟨pages, hp⟩ := h
  simp [Bank.readPath, hp]

theorem readPath_sensing {block : Nat} (h : ∀ pages, bk.pendingSlot ≠ some ⟨block, w, pages⟩) :
    bk.readPath block w = .sensing := by
  unfold Bank.readPath
  cases hp : bk.pendingSlot with
  | none => rfl
  | some p =>
    refine if_neg fun ⟨hb, hw⟩ => h p.pages ?_
    rw [hp, ← hb, ← hw]

end Bank

/-! ### An accepted post (R21, R22) -/

theorem exec_post_accepted {c : Instr} {p : Post} {s : State} {b : BankId} {block : Nat} {op : HostOp}
    (hc : postOf c = some (some p)) (ht : p.target = some (b, block, op)) (hr : s.ready = true)
    (new : p.tag ∉ s.tagsInUse) (few : s.slotsInUse < 8) (short : (s.bank b).queue.length < 6) :
    exec c s = .next { (s.withPosted b (Slot.posted p.tag op b block)).settle with
      link := { s.link with response := [0x00#8] } } := by
  rw [exec_post_ready hc hr, State.post_accepted ht new few short]
  exact congrArg Host.Outcome.next (State.settle_answer (State.setBank_link s b _) .accepted)

theorem State.withPosted_bank (s : State) (b : BankId) (x : Slot) :
    (s.withPosted b x).bank b = { s.bank b with queue := (s.bank b).queue ++ [x] } := State.setBank_bank s b _

theorem State.withPosted_bank_ne (s : State) {b k : BankId} (h : k ≠ b) (x : Slot) :
    (s.withPosted b x).bank k = s.bank k := State.setBank_bank_ne s h _

/-- A bank whose only operation has just been posted has brought it past its start point. -/
theorem State.settle_withPosted_noneQueued {s : State} {b : BankId} {x : Slot} (hs : (s.withPosted b x).Table)
    (hq : (s.bank b).queue = []) (hi : (s.bank b).internal = none) :
    ((s.withPosted b x).settle.bank b).NoneQueued := by
  have posted := State.withPosted_bank s b x
  have advanced {u : State} (hu : u.Table) (one : (u.bank b).queue.length ≤ 1) (none : (u.bank b).internal = .none) :
      ((u.advanceBank b).bank b).NoneQueued := by
    refine Bank.NoneQueued.of_rest ?_ ?_ (State.advanceBank_rests u b)
    · obtain ⟨q, r, o, same⟩ := Bank.advance_same (u.bank b).advanceFuel (Turn.of (u.bank b))
      rw [State.advanceBank, State.withTurn_bank, same]
      exact none
    · have kept := (Accounted.advance (t := Turn.of (u.bank b)) (hu.accounts b) (u.bank b).advanceFuel).tags.length_eq
      rw [State.advanceBank, State.withTurn_bank]
      simp only [List.length_append, List.length_map] at kept
      omega
  have one : ((s.withPosted b x).bank b).queue.length ≤ 1 := by simp [posted, hq]
  have none : ((s.withPosted b x).bank b).internal = .none := by rw [posted]; exact hi
  refine State.settle_noneQueued ?_
  unfold State.advanceBanks
  cases b
  · rw [State.advanceBank_bank_ne _ (by decide)]
    exact advanced hs one none
  · have same := State.advanceBank_bank_ne (s.withPosted .one x) (b := .zero) (k := .one) (by decide)
    exact advanced ((State.KeepsTable.advanceBank _ _).table hs) (by rw [same]; exact one) (by rw [same]; exact none)

theorem State.bank_shaped {s : State} (h : s.coherent = true) (hr : s.heldInReset = false) (b : BankId) :
    (s.bank b).queueShaped = true := by
  have banks : s.bank0.coherent = true ∧ s.bank1.coherent = true := by
    simpa [State.coherent, hr, and_assoc] using (by simpa [State.coherent, hr] using h : _ ∧ _).2
  have shaped {bk : Bank} (hb : bk.coherent = true) : bk.queueShaped = true := by
    simp only [Bank.coherent, Bool.and_eq_true] at hb
    exact hb.1.1.1.1.1.1.1.1.1
  cases b
  exacts [shaped banks.1, shaped banks.2]

/-- Behind a front that runs in a coherent bank a posted operation stands QUEUED at the tail, and nothing else moves. -/
theorem State.settle_withPosted_queue {s : State} {b : BankId} {x : Slot} (shaped : (s.bank b).queueShaped = true)
    (run : (s.bank b).isRunning = true) (hx : x.state = .queued) :
    ((s.withPosted b x).settle.bank b).queue = (s.bank b).queue ++ [x] := by
  have posted := State.withPosted_bank s b x
  have run' : ((s.withPosted b x).bank b).isRunning = true := by
    rw [posted]
    exact Bank.isRunning_append run x
  rw [State.settle_queue_of_running run', Bank.noteWaiting_queue_of_running run' ?_, posted]
  rw [posted]
  intro hi y hy
  rcases List.mem_append.1 hy with hy | hy
  · exact Bank.not_waiting_of_running shaped run hi y hy
  · simp [List.mem_singleton.1 hy, hx]

theorem State.settle_withPosted_completions (s : State) (b : BankId) (x : Slot) :
    ∃ more, (s.withPosted b x).settle.completions = s.completions ++ more := by
  obtain ⟨more, h⟩ := (s.withPosted b x).settle_completions
  exact ⟨more, h.trans (congrArg (· ++ more) (State.setBank_completions s b _))⟩

/-- A post touches no array: one changes only in a bank that the settling brings to run. -/
theorem State.settle_withPosted_array {s : State} {b k : BankId} {x : Slot}
    (h : (s.bank k).isRunning = true ∨ ((s.withPosted b x).settle.bank k).isRunning = false) :
    ((s.withPosted b x).settle.bank k).array = (s.bank k).array := by
  refine State.settle_array (fun k => ?_) (fun k run => ?_) h <;> by_cases same : k = b
  · subst same
    rw [State.withPosted_bank]
  · rw [State.withPosted_bank_ne s same]
  · subst same
    rw [State.withPosted_bank]
    exact Bank.isRunning_append run x
  · rw [State.withPosted_bank_ne s same]
    exact run

/-- Settles O10: the post by what settling keeps, the start points by the first check that fails. -/
theorem postAppendsItsOperation : Obligations.PostAppendsItsOperation := by
  refine ⟨fun c p s b block op hc ht hr sound new few short => ?post, fun bk sl behind hi hq hs => ?start⟩
  case post =>
    intro posted queued
    have joined : queued = s.withPosted b posted := rfl
    have fields : posted = Slot.posted p.tag op b block := rfl
    clear_value queued posted
    subst joined fields
    have hs := State.tableSound_iff.1 sound
    have hs' := hs.withPosted (posted := Slot.posted p.tag op b block) new few short nofun rfl
    have tags := ((State.KeepsTable.settle _).tags hs').trans (s.withPosted_tags b _)
    refine ⟨_, exec_post_accepted hc ht hr new few short, rfl, ?slots, tags, fun coherent run => ?running,
      fun hq hi sl hm _ => ?idle, s.settle_withPosted_completions b _, fun k h => ?array⟩
    case slots =>
      have length := tags.length_eq
      rw [List.length_cons, State.length_tagsInUse, State.length_tagsInUse] at length
      rw [State.withLink_slotsInUse]
      exact length
    case running =>
      have shaped := State.bank_shaped coherent (State.ready_iff.1 hr).1 b
      rw [State.withLink_bank]
      exact State.settle_withPosted_queue shaped run rfl
    case idle =>
      rw [State.withLink_bank] at hm
      exact State.settle_withPosted_noneQueued hs' hq hi sl hm
    case array =>
      rw [State.withLink_bank] at h ⊢
      exact State.settle_withPosted_array h
  case start =>
    intro ends waits retired loaded programs
    have step := Bank.advanceStep_queued hi hq hs
    have ended {o : OpOutcome} (h : bk.startCheck sl = some o) : ends o :=
      step.trans (congrArg some (Bank.startPoint_ends h))
    have waiting {path : Option ReadPath} (h : bk.startCheck sl = none) (apart : ∀ x ∈ behind, x.tag ≠ sl.tag)
        (hp : bk.pathOf sl = path) : waits path := by
      subst hp
      exact step.trans (congrArg some (Bank.startPoint_waits h hq apart))
    have program {w : Nat} (h : programs w) : bk.startCheck sl = bk.programCheck sl.block w := by
      obtain ⟨ho, hr, hm⟩ := h
      rw [Bank.startCheck_kind (by simp [Slot.isRead, ho]) hr hm]
      simp [Bank.kindCheck, ho]
    refine ⟨fun w p ho apart => ⟨fun hp => ?_, fun hp => ?_⟩, fun h hr => ended (Bank.startCheck_retired h hr),
      fun h hr hm => ended (Bank.startCheck_mapLost h hr hm),
      fun h r ho hb => ended ((program h).trans (Bank.programCheck_busy ho hb)),
      fun h r ho hb => ended ((program h).trans (Bank.programCheck_reopened ho hb)),
      fun w hw h none => ended ((program h).trans (Bank.programCheck_notOpen hw none)),
      fun w hw h r ho hb hn => ended ((program h).trans (Bank.programCheck_outOfOrder hw ho hb hn)),
      fun w h place => ⟨fun missing => ?_, fun full apart => ?_⟩,
      fun ho hr hm => ⟨fun none => ?_, fun r hop hb apart => ?_⟩, fun e ho hr hm apart => ?_⟩
    · exact waiting (Bank.startCheck_read ho) apart (by simp [Bank.pathOf, ho, Bank.readPath_pending hp])
    · exact waiting (Bank.startCheck_read ho) apart (by simp [Bank.pathOf, ho, Bank.readPath_sensing hp])
    · exact ended ((program h).trans ((Bank.programCheck_staging place).trans (Bank.stagingCheck_incomplete missing)))
    · exact waiting ((program h).trans ((Bank.programCheck_staging place).trans (Bank.stagingCheck_loaded full))) apart
        (by simp [Bank.pathOf, h.1])
    · refine ended ((Bank.startCheck_kind (by simp [Slot.isRead, ho]) hr hm).trans ?_)
      simp [Bank.kindCheck, ho, Bank.finishCheck_notOpen none]
    · refine waiting ((Bank.startCheck_kind (by simp [Slot.isRead, ho]) hr hm).trans ?_) apart (by simp [Bank.pathOf, ho])
      simp [Bank.kindCheck, ho, Bank.finishCheck_open hop hb]
    · refine waiting ((Bank.startCheck_kind (by simp [Slot.isRead, ho]) hr hm).trans ?_) apart (by simp [Bank.pathOf, ho])
      simp [Bank.kindCheck, ho]

end Sys2Proof.Machine

/-! # Operations stopped from outside

What ABORT and the wait limit make of an operation that has no step under way, and the end of a READ's sense. -/

namespace Sys2Proof.Machine

/-! ### The queue without the slot that ended (R33, R80) -/

/-- The queue's front runs: its head, or the READ that overtakes a SUSPENDED ERASE. -/
def FrontRuns (q : List Slot) : Prop :=
  ∃ sl behind, q = sl :: behind ∧
    (sl.state = .running ∨ (sl.state = .suspended ∧ ∃ r, overtaker behind = some r ∧ r.state = .running))

theorem overtaker_removeTag {q : List Slot} {r : Slot} (h : overtaker q = some r) {tag : Byte} (other : r.tag ≠ tag) :
    overtaker (removeTag tag q) = some r := by
  obtain ⟨taken, before, after, rfl, none⟩ := List.find?_eq_some_iff_append.1 h
  refine List.find?_eq_some_iff_append.2 ⟨taken, removeTag tag before, removeTag tag after, ?_, fun x hx => ?_⟩
  · simp [removeTag, other]
  · exact none x (mem_removeTag.1 hx).1

/-- Where the front runs it is the slot that overtaking would take. -/
theorem FrontRuns.overtaker {q : List Slot} (h : FrontRuns q) : ∃ r, overtaker q = some r ∧ r.state = .running := by
  obtain ⟨sl, behind, rfl, hs | ⟨hs, r, hr, run⟩⟩ := h
  · exact ⟨sl, by simp [Machine.overtaker, hs], hs⟩
  · exact ⟨r, by simpa [Machine.overtaker, hs] using hr, run⟩

theorem FrontRuns.removeTag {q : List Slot} (h : FrontRuns q) (distinct : (q.map Slot.tag).Nodup) {y : Slot} (hy : y ∈ q)
    (still : y.state ≠ .running) (head : y.state ≠ .suspended) : FrontRuns (removeTag y.tag q) := by
  have other {x : Slot} (hx : x ∈ q) (hs : x.state ≠ y.state) : x.tag ≠ y.tag := fun same =>
    hs (congrArg Slot.state (eq_of_tag_eq distinct hx hy same))
  obtain ⟨sl, behind, rfl, front⟩ := h
  have kept : sl.tag ≠ y.tag := other List.mem_cons_self fun same => by
    rcases front with hs | ⟨hs, -⟩
    exacts [still (same ▸ hs), head (same ▸ hs)]
  refine ⟨sl, Machine.removeTag y.tag behind, by simp [Machine.removeTag, kept], front.imp_right ?_⟩
  rintro ⟨hs, r, hr, run⟩
  have apart := other (List.mem_cons_of_mem _ (mem_of_overtaker hr)) fun same => still (same ▸ run)
  exact ⟨hs, r, overtaker_removeTag hr apart, run⟩

/-- The READ that overtook the SUSPENDED ERASE runs on as the head. -/
theorem FrontRuns.promote {q : List Slot} (h : FrontRuns q) (distinct : (q.map Slot.tag).Nodup) {y : Slot} (hy : y ∈ q)
    (still : y.state ≠ .running) : FrontRuns (promoteOvertaker (Machine.removeTag y.tag q)) := by
  obtain ⟨r, hr, run⟩ := h.overtaker
  have apart : r.tag ≠ y.tag := fun same => still (eq_of_tag_eq distinct (mem_of_overtaker hr) hy same ▸ run)
  rw [promoteOvertaker, overtaker_removeTag hr apart]
  exact ⟨r, _, rfl, .inl run⟩

theorem promoteOvertaker_none {q : List Slot} (h : ∀ x ∈ q, ¬ (x.state = .waiting ∨ x.state = .running)) :
    promoteOvertaker q = q := by
  have none : overtaker q = .none := List.find?_eq_none.2 fun x hx => by simpa using h x hx
  rw [promoteOvertaker, none]

theorem promoteOvertaker_taken {before after : List Slot} {r : Slot}
    (distinct : ((before ++ r :: after).map Slot.tag).Nodup) (taken : r.state = .waiting ∨ r.state = .running)
    (none : ∀ x ∈ before, ¬ (x.state = .waiting ∨ x.state = .running)) :
    promoteOvertaker (before ++ r :: after) = r :: (before ++ after) := by
  have found : overtaker (before ++ r :: after) = some r :=
    List.find?_eq_some_iff_append.2 ⟨by simpa using taken, before, after, rfl, fun x hx => by simpa using none x hx⟩
  have others : r.tag ∉ (before ++ after).map Slot.tag := by
    rw [List.map_append, List.map_cons, List.nodup_middle, ← List.map_append] at distinct
    exact (List.nodup_cons.1 distinct).1
  have left : removeTag r.tag (before ++ after) = before ++ after :=
    List.filter_eq_self.2 fun x hx => bne_iff_ne.2 fun same => others (same ▸ List.mem_map_of_mem hx)
  rw [promoteOvertaker, found, ← left]
  simp [removeTag]

/-! ### A slot that is stopped (R31, R33, R66, R67, R80) -/

/-- A slot that has no step or map record under way and has not ended. -/
def Slot.Stoppable (sl : Slot) : Prop := sl.state ≠ .running ∧ sl.state ≠ .recording ∧ sl.state ≠ .done

namespace Bank

variable {bk : Bank} {sl : Slot} {o : OpOutcome}

/-- Nothing but the queue changes where the operation has no stores. -/
theorem stopSlot_bare (h : sl.state = .queued ∨ sl.state = .waiting ∨ (sl.state = .held ∧ ¬ sl.hasWritten)) :
    bk.stopSlot sl o = ⟨{ bk with queue := removeTag sl.tag bk.queue }, [sl.finish o noFlags]⟩ := by
  rcases h with hs | hs | ⟨hs, hw⟩
  · simp [Bank.stopSlot, hs, Bank.endSlot]
  · simp [Bank.stopSlot, hs, Bank.endSlot]
  · simp [Bank.stopSlot, hs, Bank.endSlot, stopStores_unwritten hw]

theorem stopSlot_written (hs : sl.state = .held) (hw : sl.hasWritten) : bk.stopSlot sl o =
    ⟨{ bk with
        openBlock := none, pendingSlot := none, latch := none, pass := none, passPulses := 0
        queue := removeTag sl.tag bk.queue }, [sl.finish o noFlags]⟩ := by
  simp only [Bank.stopSlot, hs, stopStores_written hw]
  rfl

theorem stopSlot_outputWait (hs : sl.state = .outputWait) : bk.stopSlot sl o =
    ⟨{ bk with senseLatch := none, queue := removeTag sl.tag bk.queue }, [sl.finish o noFlags]⟩ := by
  simp [Bank.stopSlot, hs, Bank.endSlot]

theorem stopSlot_suspended (hs : sl.state = .suspended) : bk.stopSlot sl o =
    ⟨{ bk with queue := promoteOvertaker (removeTag sl.tag bk.queue) }, [sl.finish o noFlags]⟩ := by
  simp [Bank.stopSlot, hs, Bank.endSlot]

/-- A stop leaves the array and the map's operation, writes one record, and takes the slot out of the queue; only behind a
SUSPENDED ERASE does the queue change its order. -/
theorem stopSlot_spec (h : sl.Stoppable) :
    (bk.stopSlot sl o).ended = [sl.finish o noFlags] ∧ (bk.stopSlot sl o).bank.array = bk.array ∧
      (bk.stopSlot sl o).bank.internal = bk.internal ∧
      (sl.state ≠ .suspended ∧ (bk.stopSlot sl o).bank.queue = removeTag sl.tag bk.queue ∨
        (bk.stopSlot sl o).bank.queue = promoteOvertaker (removeTag sl.tag bk.queue)) := by
  obtain ⟨running, recording, done⟩ := h
  cases hs : sl.state with
  | queued => simp [stopSlot_bare (.inl hs)]
  | waiting => simp [stopSlot_bare (.inr (.inl hs))]
  | held =>
    by_cases hw : sl.hasWritten
    · simp [stopSlot_written hs hw]
    · simp [stopSlot_bare (.inr (.inr ⟨hs, hw⟩))]
  | suspended => simp [stopSlot_suspended hs]
  | outputWait => simp [stopSlot_outputWait hs]
  | running => exact absurd hs running
  | recording => exact absurd hs recording
  | done => exact absurd hs done

/-- A running bank runs on when another of its operations is stopped. -/
theorem isRunning_stopSlot (run : bk.isRunning = true) (distinct : (bk.queue.map Slot.tag).Nodup) {y : Slot}
    (hy : y ∈ bk.queue) (tag : y.tag = sl.tag) (state : y.state = sl.state) (h : sl.Stoppable) :
    (bk.stopSlot sl o).bank.isRunning = true := by
  obtain ⟨-, -, internal, queue⟩ := stopSlot_spec (bk := bk) (o := o) h
  have still : y.state ≠ .running := state ▸ h.1
  refine Bank.isRunning_iff.2 ?_
  rw [internal]
  refine (Bank.isRunning_iff.1 run).imp_right fun ⟨hi, front⟩ => ⟨hi, ?_⟩
  rcases queue with ⟨head, queue⟩ | queue
  · rw [queue, ← tag]
    exact FrontRuns.removeTag front distinct hy still (state ▸ head)
  · rw [queue, ← tag]
    exact FrontRuns.promote front distinct hy still

end Bank

/-! ### What a stop from outside leaves (R31, R98) -/

section Stop

variable {s : State} {b : BankId} {sl y : Slot} {o : OpOutcome}

theorem State.stopNow_completions (h : sl.Stoppable) :
    ∃ more, (s.stopNow b sl o).completions = s.completions ++ (sl.finish o noFlags :: more) := by
  obtain ⟨more, settled⟩ := (s.withTurn b ((s.bank b).stopSlot sl o)).settle_completions
  refine ⟨more, settled.trans ?_⟩
  rw [State.withTurn_completions, (Bank.stopSlot_spec h).1, List.append_assoc, List.singleton_append]

/-- The tag of the operation stands in no queue, for its slot is in the completion queue. -/
theorem State.stopNow_freed (hs : s.Table) (hy : y ∈ (s.bank b).queue) (tag : y.tag = sl.tag) (h : sl.Stoppable) (k : BankId) :
    ∀ x ∈ ((s.stopNow b sl o).bank k).queue, x.tag ≠ sl.tag := by
  have table := (State.KeepsTable.stopNow (List.mem_map.2 ⟨y, hy, tag⟩) o).table hs
  obtain ⟨more, completions⟩ := State.stopNow_completions (s := s) (b := b) (o := o) h
  exact fun x hx => table.ne_of_completed (d := sl.finish o noFlags) (by simp [completions]) hx

theorem State.stopNow_array (hs : s.Table) (hy : y ∈ (s.bank b).queue) (tag : y.tag = sl.tag) (state : y.state = sl.state)
    (h : sl.Stoppable) {k : BankId} (hk : (s.bank k).isRunning = true ∨ ((s.stopNow b sl o).bank k).isRunning = false) :
    ((s.stopNow b sl o).bank k).array = (s.bank k).array := by
  refine State.settle_array (fun k => ?_) (fun k run => ?_) hk <;> by_cases same : k = b
  · subst same
    rw [State.withTurn_bank]
    exact (Bank.stopSlot_spec h).2.1
  · rw [State.withTurn_bank_ne s same]
  · subst same
    rw [State.withTurn_bank]
    exact Bank.isRunning_stopSlot run (hs.queue_distinct k) hy tag state h
  · rw [State.withTurn_bank_ne s same]
    exact run

/-- A stop from outside leaves the port, the link, reset, the commands that wait, the station and the configuration. -/
theorem State.stopNow_frame (s : State) (b : BankId) (sl : Slot) (o : OpOutcome) :
    (s.stopNow b sl o).port = s.port ∧ (s.stopNow b sl o).link = s.link ∧ (s.stopNow b sl o).inReset = s.inReset ∧
      (s.stopNow b sl o).pending = s.pending ∧ (s.stopNow b sl o).ctl.station = s.ctl.station ∧
      (s.stopNow b sl o).ctl.settings = s.ctl.settings := by
  simp [State.stopNow]

theorem State.Table.slotOfTag_eq (hs : s.Table) (hm : sl ∈ (s.bank b).queue) : s.slotOfTag sl.tag = some (b, sl) := by
  cases found : s.slotOfTag sl.tag with
  | none => exact absurd rfl (State.slotOfTag_none found b sl hm)
  | some x =>
    obtain ⟨c, y⟩ := x
    obtain ⟨hy, tag⟩ := State.slotOfTag_some found
    obtain ⟨rfl, rfl⟩ := hs.slot_unique hm hy tag.symm
    rfl

end Stop

/-! ### ABORT (R30 to R33) -/

section Abort

variable {s : State} {b : BankId} {sl : Slot} {tag : Byte}

theorem exec_abort_found (hr : s.ready = true) (hs : s.Table) (hm : sl ∈ (s.bank b).queue) :
    exec (.abort [sl.tag]) s = .next (s.abortSlot b sl) := by
  show execAbort [sl.tag] s = _
  rw [execAbort, State.transaction_ready hr]
  simp only [oneByte, hs.slotOfTag_eq hm]

theorem exec_abort_absent (hr : s.ready = true) (h : s.slotOfTag tag = none) : exec (.abort [tag]) s =
    .next (if s.tagsInUse.contains tag then s.answer .alreadyDone else s.answer .noSuchTag) := by
  show execAbort [tag] s = _
  rw [execAbort, State.transaction_ready hr]
  simp only [oneByte, h]

/-- An operation with no step under way ends at once (R31, R33). -/
theorem exec_abort_stops (hr : s.ready = true) (hs : s.Table) (hm : sl ∈ (s.bank b).queue) (h : sl.Stoppable) :
    exec (.abort [sl.tag]) s =
      .next ((s.stopNow b sl .aborted).answer .accepted) := by
  have stops : s.abortSlot b sl = (s.stopNow b sl .aborted).answer .accepted := by
    cases state : sl.state with
    | queued | waiting | held | suspended | outputWait => simp only [State.abortSlot, state]
    | running => exact absurd state h.1
    | recording => exact absurd state h.2.1
    | done => exact absurd state h.2.2
  rw [exec_abort_found hr hs hm, stops]

/-- A tag that no queue holds is found in the completion queue or not at all. -/
theorem State.slotOfTag_eq_none (h : ∀ b, ∀ x ∈ (s.bank b).queue, x.tag ≠ tag) : s.slotOfTag tag = none := by
  cases found : s.slotOfTag tag with
  | none => rfl
  | some x =>
    obtain ⟨hx, same⟩ := State.slotOfTag_some found
    exact absurd same (h _ _ hx)

theorem exec_abort_done (hr : s.ready = true) (hs : s.Table) {d : DoneSlot} (hd : d ∈ s.completions) :
    exec (.abort [d.slot.tag]) s = .next (s.answer .alreadyDone) := by
  have used : s.tagsInUse.contains d.slot.tag = true :=
    List.contains_iff_mem.2 (State.mem_tagsInUse.2 (.inr ⟨d, hd, rfl⟩))
  rw [exec_abort_absent hr (State.slotOfTag_eq_none fun b x hx => hs.ne_of_completed hd hx), if_pos used]

theorem exec_abort_unknown (hr : s.ready = true) (h : tag ∉ s.tagsInUse) :
    exec (.abort [tag]) s = .next (s.answer .noSuchTag) := by
  have absent : s.slotOfTag tag = none :=
    State.slotOfTag_eq_none fun b x hx same => h (State.mem_tagsInUse.2 (.inl ⟨b, x, hx, same⟩))
  rw [exec_abort_absent hr absent, if_neg (mt List.contains_iff_mem.1 h)]

end Abort

/-- Settles O11: the slot that holds the tag is the one found, and the stop is read off its state. -/
theorem abortActsByTheSlotsState : Obligations.AbortActsByTheSlotsState := by
  intro s tag hr sound
  have hs := State.tableSound_iff.1 sound
  refine ⟨fun b sl hm ht => ?found, fun ⟨d, hd, ht⟩ => ht ▸ exec_abort_done hr hs hd, exec_abort_unknown hr⟩
  subst ht
  refine ⟨fun running => ?running, fun recording => ?recording, fun running recording => ?stops⟩
  case running =>
    rw [exec_abort_found hr hs hm]
    simp only [State.abortSlot, running, State.answer, State.requestStop, State.setBank_link]
    rfl
  case recording =>
    rw [exec_abort_found hr hs hm]
    simp only [State.abortSlot, recording]
    rfl
  case stops =>
    intro rest ends writes taken
    have stoppable : sl.Stoppable := ⟨running, recording, (hs.slots b sl hm).1⟩
    have stopped := exec_abort_stops hr hs hm stoppable
    obtain ⟨port, link, inReset, pending, station, settings⟩ := s.stopNow_frame b sl .aborted
    rw [State.answer, link] at stopped
    have ended {bk : Bank} (h : (s.bank b).stopSlot sl .aborted = ⟨bk, [sl.finish .aborted noFlags]⟩) : ends bk := by
      rw [State.stopNow, h, State.withTurn] at stopped
      exact stopped
    refine ⟨fun bare => ended (Bank.stopSlot_bare bare), fun held written => ended (Bank.stopSlot_written held written),
      fun waits => ended (Bank.stopSlot_outputWait waits), fun suspended => ⟨fun none => ended ?_,
      fun before r after split hr none => ended ?_⟩, ?_⟩
    · rw [Bank.stopSlot_suspended suspended]
      exact congrArg (fun q => (⟨{ s.bank b with queue := q }, _⟩ : Turn)) (promoteOvertaker_none none)
    · have distinct : (rest.map Slot.tag).Nodup := (hs.queue_distinct b).sublist (List.filter_sublist.map _)
      rw [split] at distinct
      rw [Bank.stopSlot_suspended suspended]
      exact congrArg (fun q => (⟨{ s.bank b with queue := q }, _⟩ : Turn))
        ((congrArg promoteOvertaker split).trans (promoteOvertaker_taken distinct hr none))
    · obtain ⟨more, completions⟩ := State.stopNow_completions (s := s) (b := b) (o := .aborted) stoppable
      have freed := State.stopNow_freed (o := .aborted) hs hm rfl stoppable
      have array (k) := State.stopNow_array (o := .aborted) (k := k) hs hm rfl rfl stoppable
      generalize s.stopNow b sl .aborted = t at *
      exact ⟨_, more, stopped, completions, fun k => State.withLink_bank t _ k ▸ freed k, port, station, settings, inReset,
        pending, rfl, fun k => State.withLink_bank t _ k ▸ array k⟩

/-! ### The wait limit (R98) -/

/-- A slot whose accumulator has come to stand at `n`. -/
def Slot.waited (sl : Slot) (n : Nat) : Slot := { sl with waitTime := n }

section WaitLimit

variable {s : State} {b : BankId} {sl : Slot} {tag : Byte}

theorem State.waitingSlot_eq (hs : s.Table) (hm : sl ∈ (s.bank b).queue) (waits : sl.state = .waiting ∨ sl.state = .held) :
    s.waitingSlot sl.tag = some (b, sl) := by
  rw [State.waitingSlot, hs.slotOfTag_eq hm]
  exact Option.filter_eq_some_iff.2 ⟨rfl, by simpa using waits⟩

theorem State.waitingSlot_none
    (h : ∀ b, ∀ sl ∈ (s.bank b).queue, sl.tag = tag → sl.state ≠ .waiting ∧ sl.state ≠ .held) :
    s.waitingSlot tag = none := by
  refine Option.filter_eq_none_iff.2 fun x hx => ?_
  obtain ⟨hm, same⟩ := State.slotOfTag_some hx
  simpa using h _ _ hm same

/-- The operation ends with its accumulator at the limit, where it does not stand above it (log entry 2). -/
theorem exec_waitLimitExpiry (hr : s.heldInReset = false) (hs : s.Table) (hm : sl ∈ (s.bank b).queue)
    (waits : sl.state = .waiting ∨ sl.state = .held) (limit : s.ctl.waitTicks ≠ 0) :
    exec (.waitLimitExpiry sl.tag) s =
      .next (s.stopNow b (sl.waited (max sl.waitTime s.ctl.waitTicks)) .budgetTimeout) := by
  show execWaitLimitExpiry sl.tag s = _
  have found := State.waitingSlot_eq hs hm waits
  have enabled : (decide (s.ctl.waitTicks ≠ 0) && (s.waitingSlot sl.tag).isSome) = true := by simp [found, limit]
  rw [execWaitLimitExpiry, enabled, State.happening_enabled hr]
  simp only [found, Slot.waited]

theorem exec_waitLimitExpiry_refused (h : s.ctl.waitTicks = 0 ∨ s.waitingSlot tag = none) :
    exec (.waitLimitExpiry tag) s = .refused .timerNotRunning := by
  show execWaitLimitExpiry tag s = _
  have disabled : (decide (s.ctl.waitTicks ≠ 0) && (s.waitingSlot tag).isSome) = false := by
    rcases h with h | h <;> simp [h]
  rw [execWaitLimitExpiry, disabled]
  simp [State.happening]

end WaitLimit

/-- Settles O38: the slot ends as ABORT would end it, with its accumulator moved to the limit. -/
theorem waitLimitEndsTheOperation : Obligations.WaitLimitEndsTheOperation := by
  intro s tag hr sound
  have hs := State.tableSound_iff.1 sound
  refine ⟨fun b sl g hm ht waits settings limit => ?ends, fun h => exec_waitLimitExpiry_refused ?refused⟩
  case ends =>
    subst ht
    intro writes rest
    have ticks : s.ctl.waitTicks = g.waitLimit * 10 := by rw [Controller.waitTicks, settings]; rfl
    have stopped := exec_waitLimitExpiry hr hs hm waits (by omega)
    generalize hw : max sl.waitTime s.ctl.waitTicks = waited at stopped
    have stoppable : (sl.waited waited).Stoppable := by
      rcases waits with h | h <;> simp [Slot.Stoppable, Slot.waited, h]
    obtain ⟨port, link, inReset, pending, station, settings'⟩ := s.stopNow_frame b (sl.waited waited) .budgetTimeout
    obtain ⟨more, completions⟩ := State.stopNow_completions (s := s) (b := b) (o := .budgetTimeout) stoppable
    have freed := State.stopNow_freed (sl := sl.waited waited) (o := .budgetTimeout) hs hm rfl stoppable
    have array (k) :=
      State.stopNow_array (sl := sl.waited waited) (o := .budgetTimeout) (k := k) hs hm rfl rfl stoppable
    generalize ht : s.stopNow b (sl.waited waited) .budgetTimeout = t at *
    refine ⟨t, more, waited, stopped, by omega, by omega, ⟨fun unwritten => ht.symm.trans ?_,
      fun ⟨held, written⟩ => ht.symm.trans ?_⟩, completions, freed, port, link, station, settings', inReset, pending, array⟩
    · have bare : sl.state = .waiting ∨ sl.state = .held ∧ ¬ sl.hasWritten :=
        waits.imp_right fun held => ⟨held, fun written => unwritten ⟨held, written⟩⟩
      rw [State.stopNow, Bank.stopSlot_bare (sl := sl.waited waited) (.inr bare), State.withTurn]
      rfl
    · rw [State.stopNow, Bank.stopSlot_written (sl := sl.waited waited) held written, State.withTurn]
      rfl
  case refused =>
    rcases h with none | ⟨g, settings, zero⟩ | none
    · exact .inl (by rw [Controller.waitTicks, none])
    · exact .inl (by rw [Controller.waitTicks, settings]; simp [zero])
    · exact .inr (State.waitingSlot_none none)

/-! ### The end of a READ's sense (R32, R38, R41, R42) -/

namespace Bank

variable {bk : Bank} {sl : Slot} {w : Nat} {p : Position}

theorem outputFree_eq_false {holder : Option Byte} (h : bk.output.holder = holder) (held : holder ≠ none) :
    bk.outputFree = false := by
  cases holder with
  | none => exact absurd rfl held
  | some tag => simp [Bank.outputFree, h]

theorem readSensed_completes (hr : bk.runningRead = some sl) (ho : sl.op = .read w p) (cells : Option Page)
    (free : bk.output.holder = none) : bk.readSensed cells =
      some (({ bk.atRest with senseLatch := none }).completeRead sl (bk.array.sense sl.block w p cells (.read sl.tag)).page
        (bk.array.sense sl.block w p cells (.read sl.tag)).outcome noFlags) := by
  simp [Bank.readSensed, hr, ho, Bank.outputFree, Bank.atRest, free]

theorem readSensed_stops (hr : bk.runningRead = some sl) (ho : sl.op = .read w p) (cells : Option Page)
    (held : bk.output.holder ≠ none) (stop : sl.stopRequest = true) : bk.readSensed cells =
      some (({ bk.atRest with senseLatch := none }).endSlot sl .aborted noFlags) := by
  simp [Bank.readSensed, hr, ho, Bank.outputFree, Bank.atRest, held, stop]

theorem readSensed_waits (hr : bk.runningRead = some sl) (ho : sl.op = .read w p) (cells : Option Page)
    (held : bk.output.holder ≠ none) (go : sl.stopRequest = false) : bk.readSensed cells =
      some (Turn.of { bk.atRest with
        senseLatch := some (bk.array.sense sl.block w p cells (.read sl.tag))
        queue := updateTag sl.tag (fun x => { x with state := .outputWait }) bk.queue }) := by
  simp [Bank.readSensed, hr, ho, Bank.outputFree, Bank.atRest, held, go]

end Bank

section Sense

variable {s : State} {b : BankId} {u : Turn}

theorem State.conclude_eq_settle (h : u.bank.mapState = (s.bank b).mapState) :
    s.conclude b u = (s.withTurn b u).settle := by
  rw [State.conclude, State.noteMap_eq, State.withTurn_bank, if_neg (fun news => news.2 h)]

theorem State.coherent_table (h : s.coherent = true) : s.Table := by
  simp only [State.coherent, Bool.and_eq_true] at h
  exact State.tableSound_iff.1 h.1.1.1

/-- What follows the end of a READ's sense leaves the buffer it filled or found held, the latch, and the slot that waits. -/
theorem exec_readSenseEnd {cells : Option Page} (hr : s.heldInReset = false)
    (step : (s.bank b).step = some (.sense .read)) (hu : (s.bank b).readSensed cells = some u)
    (map : u.bank.mapState = (s.bank b).mapState) (held : u.bank.outputFree = false) :
    ∃ t more, exec (.readSenseEnd b cells) s = .next t ∧ t.port = s.port ∧ t.link = s.link ∧ t.inReset = s.inReset ∧
      t.pending = s.pending ∧ t.completions = s.completions ++ u.ended ++ more ∧ (t.bank b).output = u.bank.output ∧
      (t.bank b).senseLatch = u.bank.senseLatch ∧
      (s.Table → ∀ x ∈ u.bank.queue, x.state = .outputWait → x ∈ (t.bank b).queue) := by
  have bank := s.withTurn_bank b u
  obtain ⟨more, completions⟩ := (s.withTurn b u).settle_completions
  have settles := (State.BanksSettle.settle (s.withTurn b u) b).held (bank.symm ▸ held)
  rw [bank] at settles
  have ended : exec (.readSenseEnd b cells) s = .next (s.conclude b u) :=
    State.stepEnd_some (finish := fun bk _ => bk.readSensed cells) hr step hu
  rw [State.conclude_eq_settle map] at ended
  refine ⟨_, more, ended, by simp, by simp, by simp, by simp, completions, settles.1, settles.2, fun hs x hx waits => ?_⟩
  refine State.AwaitsOutput.settle_mem ⟨?_, bank.symm ▸ held, bank.symm ▸ hx, waits⟩
  exact (State.KeepsTable.withTurn fun _ h => h.readSensed hu).table hs

end Sense

/-- Settles O23: one of the three ends of the sense, and what settling leaves of it. -/
theorem readSenseEndCompletesOrWaits : Obligations.ReadSenseEndCompletesOrWaits := by
  intro s b cells sl w p hr step run ho r
  by_cases free : (s.bank b).output.holder = none
  · obtain ⟨t, more, ht, port, link, inReset, pending, completions, output, -, -⟩ :=
      exec_readSenseEnd hr step (Bank.readSensed_completes run ho cells free) rfl rfl
    refine ⟨t, more, ht, port, link, inReset, pending, fun _ => ⟨?_, output⟩, fun held => absurd free held,
      fun held => absurd free held⟩
    rw [completions, List.append_assoc]
    rfl
  have held : (s.bank b).outputFree = false := Bank.outputFree_eq_false rfl free
  by_cases stop : sl.stopRequest = true
  · obtain ⟨t, more, ht, port, link, inReset, pending, completions, output, latch, -⟩ :=
      exec_readSenseEnd hr step (Bank.readSensed_stops run ho cells free stop) rfl held
    refine ⟨t, more, ht, port, link, inReset, pending, fun none => absurd none free, fun _ _ => ⟨?_, output, latch⟩,
      fun _ go => absurd stop (by simp [go])⟩
    rw [completions, List.append_assoc]
    rfl
  · have go : sl.stopRequest = false := by simpa using stop
    obtain ⟨t, more, ht, port, link, inReset, pending, completions, output, latch, waits⟩ :=
      exec_readSenseEnd hr step (Bank.readSensed_waits run ho cells free go) rfl held
    refine ⟨t, more, ht, port, link, inReset, pending, fun none => absurd none free, fun _ halt => absurd halt stop,
      fun _ _ => ⟨?_, output, latch, fun coherent => ?_⟩⟩
    · rw [completions]
      exact congrArg (· ++ more) (List.append_nil _)
    · exact waits (State.coherent_table coherent) _ (List.mem_map.2 ⟨sl, mem_of_runningRead run, if_pos rfl⟩) rfl

end Sys2Proof.Machine

/-! # The output buffer

FETCH_OUTPUT reads the buffer; RELEASE_OUTPUT frees it, and a READ that waits for it at the front of the bank takes it. -/

namespace Sys2Proof.Machine

theorem bankOf_none {bank : Byte} (h : 1 < bank.toNat) : bankOf bank = none := by
  rw [bankOf_eq, if_neg (Nat.not_le_of_lt h)]

/-! ### FETCH_OUTPUT (R43) -/

theorem pageBytesAt_eq (page : Page) (offset n : Nat) :
    pageBytesAt page offset n = (List.range n).map fun i => pageByte page (offset + i) := by
  induction n generalizing offset with
  | zero => rfl
  | succ n ih =>
    rw [pageBytesAt, ih, List.range_succ_eq_map, List.map_cons, List.map_map]
    simp only [Function.comp_def, Nat.add_zero, Nat.succ_eq_add_one, Nat.add_comm, Nat.add_left_comm]

theorem fetchParams_none {params : List Byte} (h : params.length ≠ 5) : fetchParams params = none := by
  unfold fetchParams
  split
  · exact absurd rfl h
  · rfl

section Fetch

variable {s : State} {params : List Byte} {bank tag : Byte} {offset length : Nat} {b : BankId}

theorem exec_fetchOutput_badLength (hr : s.ready = true) (h : fetchParams params = none) :
    exec (.fetchOutput params) s = .next (s.answer .badLength) := by
  show execFetchOutput params s = _
  rw [execFetchOutput, State.transaction_ready hr, h]

theorem exec_fetchOutput_badAddress (hr : s.ready = true) (h : fetchParams params = some (bank, offset, length))
    (hb : bankOf bank = none) : exec (.fetchOutput params) s = .next (s.answer .badAddress) := by
  show execFetchOutput params s = _
  rw [execFetchOutput, State.transaction_ready hr, h]
  simp only [hb]

theorem exec_fetchOutput_badValue (hr : s.ready = true) (h : fetchParams params = some (bank, offset, length))
    (hb : bankOf bank = some b) (ht : ¬ transferInRange offset length = true) :
    exec (.fetchOutput params) s = .next (s.answer .badValue) := by
  show execFetchOutput params s = _
  rw [execFetchOutput, State.transaction_ready hr, h]
  simp only [hb, if_neg ht]

theorem exec_fetchOutput_empty (hr : s.ready = true) (h : fetchParams params = some (bank, offset, length))
    (hb : bankOf bank = some b) (ht : transferInRange offset length = true) (free : (s.bank b).output.holder = none) :
    exec (.fetchOutput params) s = .next (s.answer .outputEmpty) := by
  show execFetchOutput params s = _
  rw [execFetchOutput, State.transaction_ready hr, h]
  simp only [hb, if_pos ht, free]

theorem exec_fetchOutput_returned (hr : s.ready = true) (h : fetchParams params = some (bank, offset, length))
    (hb : bankOf bank = some b) (ht : transferInRange offset length = true) (held : (s.bank b).output.holder = some tag) :
    exec (.fetchOutput params) s =
      .next (s.answerData (tag :: pageBytesAt (s.bank b).output.page offset length)) := by
  show execFetchOutput params s = _
  rw [execFetchOutput, State.transaction_ready hr, h]
  simp only [hb, if_pos ht, held]

end Fetch

/-- Settles O14: the answers by the check that fails first, and the bytes returned in offset order. -/
theorem fetchOutputReturnsTheBuffersBytes : Obligations.FetchOutputReturnsTheBuffersBytes := by
  intro s bank o1 o0 l1 l0 hr offset length fits answered
  have fields : fetchParams [bank, o1, o0, l1, l0] = some (bank, offset, length) := rfl
  refine ⟨fun params h => exec_fetchOutput_badLength hr (fetchParams_none h),
    fun h => exec_fetchOutput_badAddress hr fields (bankOf_none h), fun b hb => ⟨fun unfit => ?_, fun fit free => ?_,
      fun tag fit held => ?_⟩⟩
  · exact exec_fetchOutput_badValue hr fields hb (mt transferInRange_iff.1 unfit)
  · exact exec_fetchOutput_empty hr fields hb (transferInRange_iff.2 fit) free
  · have returned := exec_fetchOutput_returned hr fields hb (transferInRange_iff.2 fit) held
    rw [pageBytesAt_eq] at returned
    exact returned

/-! ### What settling leaves of an output buffer -/

/-- The bank once all that follows at once at its front has happened, as settling begins. -/
def Bank.advanced (bk : Bank) : Turn := Bank.advance bk.advanceFuel (Turn.of bk)

theorem State.advanceBank_eq (s : State) (b : BankId) : s.advanceBank b = s.withTurn b (s.bank b).advanced := rfl

theorem Bank.advanced_of_rest {bk : Bank} (h : bk.advanceStep = none) : bk.advanced = Turn.of bk :=
  Bank.advance_of_rest (t := Turn.of bk) h _

/-- Once the first thing that happens leaves the buffer held, what follows keeps it, and the records of that thing stay. -/
theorem Bank.advanced_of_held {bk : Bank} {u : Turn} (h : bk.advanceStep = some u) (held : u.bank.outputFree = false) :
    bk.advanced.bank.output = u.bank.output ∧ u.ended ⊆ bk.advanced.ended := by
  have next : bk.advanced = Bank.advance (2 * bk.queue.length + 1) u := Bank.advance_succ (t := Turn.of bk) h _
  obtain ⟨more, ended⟩ := Bank.advance_ended (2 * bk.queue.length + 1) u
  rw [next, ended]
  exact ⟨((Bank.Settles.advance _ u).held held).1, List.subset_append_left _ _⟩

theorem Bank.noteWaiting_output (bk : Bank) : bk.noteWaiting.output = bk.output := by
  rcases Bank.Settles.noteWaiting_cases bk with same | noted | ⟨-, sl, behind, -, -, -, resumed⟩
  · rw [same]
  · rw [noted]
  · rw [resumed]

theorem Bank.proceed_output (bk : Bank) : bk.proceed.output = bk.output := by
  obtain ⟨a, q, i, st, p, n, sg, l, ps, ob, same⟩ := Bank.proceed_same bk
  rw [same]

namespace State

variable {s : State} {b : BankId}

/-- What holds between a bank and the one that replaces it, and between each bank and itself, holds of both banks. -/
theorem setBank_related {P : Bank → Bank → Prop} (refl : ∀ x, P x x) {bk : Bank} (h : P (s.bank b) bk) (k : BankId) :
    P (s.bank k) ((s.setBank b bk).bank k) := by
  by_cases same : k = b
  · subst same
    exact (setBank_bank s k bk).symm ▸ h
  · exact (setBank_bank_ne s same bk).symm ▸ refl _

theorem setBank_output {bk : Bank} (h : bk.output = (s.bank b).output) (k : BankId) :
    ((s.setBank b bk).bank k).output = (s.bank k).output :=
  setBank_related (P := fun x y => y.output = x.output) (fun _ => rfl) h k

theorem tryBank_output (s : State) (b k : BankId) : ((s.tryBank b).bank k).output = (s.bank k).output := by
  rcases s.tryBank_cases b with same | ⟨-, -, tried⟩
  · rw [same]
  · rw [tried]
    exact setBank_output (Bank.proceed_output _) k

theorem admitAll_output (s : State) (k : BankId) : (s.admitAll.bank k).output = (s.bank k).output := by
  simp only [admitAll, tryBanks, tryBank_output, soloClaim_bank]

theorem orderPause_output (s : State) (b k : BankId) : ((s.orderPause b).bank k).output = (s.bank k).output := by
  unfold orderPause
  split
  · refine setBank_output ?_ k
    rfl
  · rfl

theorem advanceBanks_bank (s : State) (b : BankId) : s.advanceBanks.bank b = (s.bank b).advanced.bank := by
  unfold advanceBanks
  cases b
  · rw [advanceBank_bank_ne _ (by decide), advanceBank_eq, withTurn_bank]
  · rw [advanceBank_eq, withTurn_bank, advanceBank_bank_ne _ (by decide)]

/-- After the front has been carried on, settling leaves the output buffer. -/
theorem settle_output (s : State) (b : BankId) : (s.settle.bank b).output = (s.bank b).advanced.bank.output := by
  simp only [settle, orderPauses, tendTransmit_bank, orderPause_output, noteWaiting_bank, Bank.noteWaiting_output,
    admitAll_output, advanceBanks_bank]

theorem settle_completions_eq (s : State) : s.settle.completions =
    s.completions ++ (s.bank .zero).advanced.ended ++ (s.bank .one).advanced.ended := by
  have other (v : Turn) : (s.withTurn .zero v).bank .one = s.bank .one := withTurn_bank_ne s (by decide) v
  simp only [settle, admitAll, advanceBanks, tendTransmit_completions, orderPauses_completions, noteWaiting_completions,
    tryBanks_completions, soloClaim_completions, advanceBank_eq, withTurn_completions, other]

theorem advanced_ended_subset (s : State) (b : BankId) : (s.bank b).advanced.ended ⊆ s.settle.completions := by
  rw [settle_completions_eq]
  cases b <;> intro d hd <;> simp [hd]

/-- A bank at whose front nothing follows keeps its output buffer. -/
theorem settle_output_of_rest (h : (s.bank b).advanceStep = none) : (s.settle.bank b).output = (s.bank b).output := by
  rw [settle_output, Bank.advanced_of_rest h]
  rfl

/-- A READ that takes the buffer first of all at the front of the bank holds it from then on, and its record is written. -/
theorem settle_of_completeRead {bk : Bank} {sl : Slot} {page : Page} {o : OpOutcome} {f : RecordFlags}
    (h : (s.bank b).advanceStep = some (bk.completeRead sl page o f)) :
    (s.settle.bank b).output = ⟨some sl.tag, page⟩ ∧ sl.finish o f ∈ s.settle.completions := by
  obtain ⟨output, ended⟩ := Bank.advanced_of_held h rfl
  exact ⟨(settle_output s b).trans output, advanced_ended_subset s b (ended (List.mem_singleton.2 rfl))⟩

theorem bank_coherent (h : s.coherent = true) (hr : s.heldInReset = false) (b : BankId) : (s.bank b).coherent = true := by
  simp only [State.coherent, hr, Bool.false_or, Bool.and_eq_true] at h
  cases b
  exacts [h.2.1, h.2.2]

end State

/-! ### What waits for a free buffer (R36, R42) -/

/-- The slot asks for the output buffer: a READ in OUTPUT_WAIT, or one WAITING on the pending path. -/
def Slot.AsksForOutput (sl : Slot) : Prop :=
  sl.state = .outputWait ∨ (sl.state = .waiting ∧ sl.path = some .pending)

namespace Bank

variable {bk : Bank} {sl : Slot} {behind : List Slot}

/-- The latch's page enters the free buffer under the tag of the READ that waits (R44). -/
theorem advanceStep_outputWait {r : SenseResult} (hi : bk.internal = none) (hq : bk.queue = sl :: behind)
    (hs : sl.state = .outputWait) (hl : bk.senseLatch = some r) (free : bk.outputFree = true) :
    bk.advanceStep = some (({ bk with senseLatch := none }).completeRead sl r.page r.outcome noFlags) := by
  simp [advanceStep, hi, hq, hs, completeWaiting, hl, free]

/-- The pending slot's page enters the free buffer under the tag of the READ that waits (R36). -/
theorem advanceStep_pending {w : Nat} {p : Position} {ps : PendingSlot} (hi : bk.internal = none)
    (hq : bk.queue = sl :: behind) (hs : sl.state = .waiting) (ho : sl.op = .read w p) (hp : sl.path = some .pending)
    (hps : bk.pendingSlot = some ps) (free : bk.outputFree = true) :
    bk.advanceStep = some (bk.completeRead sl (ps.pages.get p) .ok fromPendingFlag) := by
  simp [advanceStep, hi, hq, hs, servePending, ho, hp, free, pendingPage, hps]

theorem advanceStep_internal (hi : bk.internal ≠ none) : bk.advanceStep = none :=
  if_pos (Option.isSome_iff_ne_none.2 hi)

theorem advanceStep_empty (hq : bk.queue = []) : bk.advanceStep = none := by
  simp [advanceStep, hq]

theorem servePending_of_sensing (hp : sl.path ≠ some .pending) : bk.servePending sl = none := by
  unfold servePending
  split
  · exact if_neg fun ⟨_, pending, _⟩ => hp pending
  all_goals rfl

theorem advanceStep_of_still_head (hq : bk.queue = sl :: behind) (hs : sl.state = .running ∨ sl.state = .held ∨
    sl.state = .recording ∨ (sl.state = .waiting ∧ sl.path ≠ some .pending)) : bk.advanceStep = none := by
  unfold advanceStep
  rw [hq]
  rcases hs with hs | hs | hs | ⟨hs, hp⟩ <;> simp only [hs, ite_self]
  rw [servePending_of_sensing hp, ite_self]

/-- Nothing follows the freeing of a coherent bank's held buffer where no READ asks for it: no head is QUEUED, and none is
SUSPENDED while the buffer is held. -/
theorem advanceStep_freeOutput (coherent : bk.coherent = true) (held : bk.outputFree = false)
    (none : ∀ sl ∈ bk.queue, ¬ sl.AsksForOutput) : bk.freeOutput.advanceStep = .none := by
  simp only [Bank.coherent, Bool.and_eq_true] at coherent
  obtain ⟨⟨⟨⟨⟨⟨⟨⟨⟨shaped, -⟩, -⟩, -⟩, -⟩, -⟩, -⟩, -⟩, latch⟩, -⟩ := coherent
  by_cases hi : bk.internal = .none
  case neg => exact advanceStep_internal hi
  case pos =>
    cases hq : bk.queue with
    | nil => exact advanceStep_empty hq
    | cons sl behind =>
      have front : frontShaped sl behind = true := by simpa [queueShaped, hi, hq] using shaped
      have head : sl.state ≠ .suspended := by
        simp only [latchFits, held, hq, Bool.false_or, Bool.and_eq_true, List.all_cons, decide_eq_true_eq] at latch
        exact latch.1.1
      have silent := none sl (head_mem hq)
      refine advanceStep_of_still_head hq ?_
      cases hs : sl.state with
      | running => exact .inl rfl
      | held => exact .inr (.inl rfl)
      | recording => exact .inr (.inr (.inl rfl))
      | waiting => exact .inr (.inr (.inr ⟨rfl, fun hp => silent (.inr ⟨hs, hp⟩)⟩))
      | outputWait => exact absurd (.inl hs) silent
      | suspended => exact absurd hs head
      | queued | done => simp [frontShaped, hs] at front

end Bank

/-! ### RELEASE_OUTPUT (R44) -/

section Release

variable {s : State} {params : List Byte} {bank : Byte} {b : BankId}

theorem exec_releaseOutput_badLength (hr : s.ready = true) (h : params.length ≠ 1) :
    exec (.releaseOutput params) s = .next (s.answer .badLength) := by
  show execReleaseOutput params s = _
  rw [execReleaseOutput, State.transaction_ready hr, oneByte_none h]

theorem exec_releaseOutput_badAddress (hr : s.ready = true) (hb : bankOf bank = none) :
    exec (.releaseOutput [bank]) s = .next (s.answer .badAddress) := by
  show execReleaseOutput [bank] s = _
  rw [execReleaseOutput, State.transaction_ready hr]
  simp only [oneByte, hb]

theorem exec_releaseOutput_empty (hr : s.ready = true) (hb : bankOf bank = some b) (free : (s.bank b).outputFree = true) :
    exec (.releaseOutput [bank]) s = .next (s.answer .outputEmpty) := by
  show execReleaseOutput [bank] s = _
  rw [execReleaseOutput, State.transaction_ready hr]
  simp only [oneByte, hb, if_pos free]

theorem exec_releaseOutput_held (hr : s.ready = true) (hb : bankOf bank = some b) (held : (s.bank b).outputFree = false) :
    exec (.releaseOutput [bank]) s = .next { (s.setBank b (s.bank b).freeOutput).settle with
      link := { s.link with response := [0x00#8] } } := by
  show execReleaseOutput [bank] s = _
  rw [execReleaseOutput, State.transaction_ready hr]
  simp only [oneByte, hb, held, Bool.false_eq_true, if_false]
  exact congrArg Host.Outcome.next (State.settle_answer (State.setBank_link s b _) .accepted)

/-- Freeing a buffer touches no array: one changes only in a bank that the settling brings to run. -/
theorem State.settle_freeOutput_array {k : BankId}
    (h : (s.bank k).isRunning = true ∨ ((s.setBank b (s.bank b).freeOutput).settle.bank k).isRunning = false) :
    ((s.setBank b (s.bank b).freeOutput).settle.bank k).array = (s.bank k).array := by
  have array (k : BankId) : ((s.setBank b (s.bank b).freeOutput).bank k).array = (s.bank k).array :=
    State.setBank_related (s := s) (P := fun x y => y.array = x.array) (fun _ => rfl) (by rfl) k
  have running (k : BankId) : ((s.setBank b (s.bank b).freeOutput).bank k).isRunning = (s.bank k).isRunning :=
    State.setBank_related (s := s) (P := fun x y => y.isRunning = x.isRunning) (fun _ => rfl) (by rfl) k
  exact State.settle_array array (fun k run => (running k).trans run) h

end Release

/-- Settles O15: the freed bank either serves the READ at its front before anything else, or rests. -/
theorem releaseOutputFreesOrRefillsTheBuffer : Obligations.ReleaseOutputFreesOrRefillsTheBuffer := by
  intro s bank hr refused
  refine ⟨fun params h => exec_releaseOutput_badLength hr h, fun h => exec_releaseOutput_badAddress hr (bankOf_none h),
    fun b hb => ⟨fun free => exec_releaseOutput_empty hr hb (by simp [Bank.outputFree, free]), fun holder => ?held⟩⟩
  case held =>
    have held : (s.bank b).outputFree = false := Bank.outputFree_eq_false rfl holder
    intro freed
    have freed_bank : freed.bank b = (s.bank b).freeOutput := State.setBank_bank s b _
    have served {bk : Bank} {sl : Slot} {page : Page} {o : OpOutcome} {f : RecordFlags}
        (step : (s.bank b).freeOutput.advanceStep = some (bk.completeRead sl page o f)) :
        (freed.settle.bank b).output = ⟨some sl.tag, page⟩ ∧ sl.finish o f ∈ freed.settle.completions :=
      State.settle_of_completeRead (freed_bank ▸ step)
    have rests (step : (s.bank b).freeOutput.advanceStep = none) :
        (freed.settle.bank b).output = ⟨none, (s.bank b).output.page⟩ := by
      rw [State.settle_output_of_rest (freed_bank ▸ step), freed_bank]
      rfl
    obtain ⟨more, completions⟩ := freed.settle_completions
    refine ⟨_, exec_releaseOutput_held hr hb held, rfl, ⟨more, ?_⟩, ?_, ?_, ?_, ?_⟩
    all_goals simp only [State.withLink_bank]
    · rw [State.setBank_completions] at completions
      exact completions
    · exact fun sl behind r hi hq hs hl => served (Bank.advanceStep_outputWait hi hq hs hl rfl)
    · exact fun sl behind w p ps hi hq hs ho hp hps => served (Bank.advanceStep_pending hi hq hs ho hp hps rfl)
    · refine ⟨fun hi => rests (Bank.advanceStep_internal hi), fun hq => rests (Bank.advanceStep_empty hq),
        fun sl behind hq hs => rests (Bank.advanceStep_of_still_head hq hs), fun coherent none => rests ?_⟩
      refine Bank.advanceStep_freeOutput (State.bank_coherent coherent (State.ready_iff.1 hr).1 b) held fun sl hm => ?_
      rintro (hs | pending)
      exacts [(none sl hm).1 hs, (none sl hm).2 pending]
    · exact fun k h => State.settle_freeOutput_array h

end Sys2Proof.Machine

/-! # The staging buffer and the blank check

LOAD_STAGING writes into one staging slot; the end of a blank check judges the block that a PROGRAM of word line 0 would open. -/

namespace Sys2Proof.Machine

/-! ### LOAD_STAGING (R50) -/

theorem positionOf_none {pos : Byte} (h : 2 < pos.toNat) : positionOf pos = none := by
  rw [positionOf_eq, if_neg (Nat.not_le_of_lt h)]

theorem loadParams_short {params : List Byte} (h : params.length < 6) : loadParams params = none := by
  unfold loadParams
  split
  · simp only [List.length_cons] at h
    omega
  · rfl

section Load

variable {s : State} {params : List Byte} {l : LoadParams} {b : BankId} {p : Position}

theorem exec_loadStaging_badLength (hr : s.ready = true) (h : loadParams params = none) :
    exec (.loadStaging params) s = .next (s.answer .badLength) := by
  show execLoadStaging params s = _
  rw [execLoadStaging, State.transaction_ready hr, h]

theorem exec_loadStaging_badAddress (hr : s.ready = true) (h : loadParams params = some l)
    (hbp : bankOf l.bank = none ∨ positionOf l.position = none) :
    exec (.loadStaging params) s = .next (s.answer .badAddress) := by
  show execLoadStaging params s = _
  rw [execLoadStaging, State.transaction_ready hr, h]
  rcases hbp with hb | hp
  · simp only [hb]
  · cases hb : bankOf l.bank <;> simp only [hb, hp]

theorem exec_loadStaging_badValue (hr : s.ready = true) (h : loadParams params = some l) (hb : bankOf l.bank = some b)
    (hp : positionOf l.position = some p) (ht : ¬ transferInRange l.offset l.length = true) :
    exec (.loadStaging params) s = .next (s.answer .badValue) := by
  show execLoadStaging params s = _
  rw [execLoadStaging, State.transaction_ready hr, h]
  simp only [hb, hp, if_neg ht]

theorem exec_loadStaging_accepted (hr : s.ready = true) (h : loadParams params = some l) (hb : bankOf l.bank = some b)
    (hp : positionOf l.position = some p) (ht : transferInRange l.offset l.length = true) :
    exec (.loadStaging params) s = .next { s.setBank b ((s.bank b).loadStaging p l.offset l.data) with
      link := { s.link with response := [0x00#8] } } := by
  show execLoadStaging params s = _
  rw [execLoadStaging, State.transaction_ready hr, h]
  simp only [hb, hp, if_pos ht, State.answer, State.setBank_link]
  rfl

end Load

/-- Settles O13: the refusals by the check that fails first, and the bytes by the reading rules of a page write. -/
theorem loadStagingWritesItsBytes : Obligations.LoadStagingWritesItsBytes := by
  intro s params hr run refused
  refine ⟨fun short => exec_loadStaging_badLength hr (loadParams_short short), ?_⟩
  rintro bank pos o1 o0 l1 l0 data rfl offset fits
  refine ⟨fun wrong => exec_loadStaging_badLength hr (if_neg wrong), fun counted => ?_⟩
  have fields : loadParams (bank :: pos :: o1 :: o0 :: l1 :: l0 :: data) =
      some ⟨bank, pos, offset, be16 l1 l0, data⟩ := if_pos counted
  have in_range : transferInRange offset (be16 l1 l0) = true ↔ fits := by
    rw [show be16 l1 l0 = data.length from counted.symm]
    exact transferInRange_iff
  refine ⟨fun out => exec_loadStaging_badAddress hr fields (out.imp bankOf_none positionOf_none), fun hb hp unfit => ?_,
    fun b p hb hp fit => ⟨_, exec_loadStaging_accepted hr fields hb hp (in_range.2 fit), fun wf =>
      ⟨pageByte_pageWrite_inside _ offset data wf, pageByte_pageWrite_outside _ offset data wf⟩⟩⟩
  exact exec_loadStaging_badValue hr fields ((bankOf_eq bank).trans (if_pos hb)) ((positionOf_eq pos).trans (if_pos hp))
    (mt in_range.1 unfit)

/-! ### The end of a blank check (R56) -/

section BlankCheck

variable {bk : Bank} {sl : Slot} {behind : List Slot} {w : Nat} (gate : Bool)

theorem Bank.blankChecked_erased (hq : bk.queue = sl :: behind) (ho : sl.op = .program w)
    (complete : bk.array.eraseComplete sl.block = true) (clean : bk.array.marksOf sl.block 0 = noMarks) :
    bk.blankChecked gate = some (({ bk with senseLatch := none } : Bank).boundary sl gate) := by
  simp [Bank.blankChecked, hq, ho, complete, clean]

theorem Bank.blankChecked_notErased (hq : bk.queue = sl :: behind) (ho : sl.op = .program w)
    (unclean : ¬ (bk.array.eraseComplete sl.block = true ∧ bk.array.marksOf sl.block 0 = noMarks)) :
    bk.blankChecked gate = some (({ bk with senseLatch := none } : Bank).atRest.endSlot sl .notErased noFlags) := by
  simp only [Bank.blankChecked, hq, ho, Bool.and_eq_true, decide_eq_true_eq, if_neg unclean]

end BlankCheck

theorem exec_blankCheckEnd {s : State} {b : BankId} {u : Turn} (hr : s.heldInReset = false)
    (hs : (s.bank b).step = some (.sense .blankCheck)) (hu : (s.bank b).blankChecked (s.gateAdmits b) = some u) :
    exec (.blankCheckEnd b) s = .next (s.conclude b u) :=
  State.stepEnd_some (finish := fun bk gate => bk.blankChecked gate) hr hs hu

/-- Settles O26: a clean block settles the boundary, and any other ends the PROGRAM at rest. -/
theorem blankCheckEndJudgesTheBlock : Obligations.BlankCheckEndJudgesTheBlock := by
  intro s b sl behind w hr hs hq ho blank
  exact ⟨fun unclean => exec_blankCheckEnd hr hs (Bank.blankChecked_notErased _ hq ho unclean),
    fun ⟨complete, clean⟩ => exec_blankCheckEnd hr hs (Bank.blankChecked_erased _ hq ho complete clean)⟩

end Sys2Proof.Machine

/-! # The end of an erase verify and the suspended erase

The order of the boundary of a RUNNING ERASE, and what the front of a bank does while its ERASE is SUSPENDED: a READ is taken,
the taken READ goes on, or the ERASE resumes. -/

namespace Sys2Proof.Machine

/-! ### READs that an ERASE lets pass (R76, R77) -/

/-- The slot has been taken to run: WAITING or RUNNING (R77). -/
def Slot.Taken (x : Slot) : Prop := x.state = .waiting ∨ x.state = .running

/-- The slot may be taken during an ERASE of the block: a READ of another block, still QUEUED (R76). -/
def Slot.MayTake (block : Nat) (x : Slot) : Prop := x.isRead = true ∧ x.state = .queued ∧ x.block ≠ block

theorem overtaker_eq_none_iff {behind : List Slot} : overtaker behind = none ↔ ∀ x ∈ behind, ¬ x.Taken := by
  simp [overtaker, Slot.Taken]

theorem overtaker_of_first_taken {ahead after : List Slot} {r : Slot} (taken : r.Taken) (first : ∀ x ∈ ahead, ¬ x.Taken) :
    overtaker (ahead ++ r :: after) = some r :=
  List.find?_eq_some_iff_append.2
    ⟨by simpa [Slot.Taken] using taken, ahead, after, rfl, fun x hx => by simpa [Slot.Taken] using first x hx⟩

section Candidates

variable {block : Nat} {behind ahead after : List Slot} {r : Slot}

/-- Behind READs alone the candidates are not cut off (R76). -/
theorem candidate_append (reads : ∀ x ∈ ahead, x.isRead = true) (hr : r.isRead = true) :
    candidate block (ahead ++ r :: after) =
      (ahead ++ r :: after.takeWhile Slot.isRead).find? fun x => x.state == .queued && x.block != block := by
  rw [candidate, List.takeWhile_append_of_pos reads, List.takeWhile_cons_of_pos hr]

theorem candidate_of_nearest (may : r.MayTake block) (nearest : ∀ x ∈ ahead, x.isRead = true ∧ ¬ x.MayTake block) :
    candidate block (ahead ++ r :: after) = some r := by
  obtain ⟨read, queued, other⟩ := may
  rw [candidate_append (fun x hx => (nearest x hx).1) read]
  refine List.find?_eq_some_iff_append.2 ⟨by simp [queued, other], ahead, _, rfl, fun x hx => ?_⟩
  obtain ⟨xread, passed⟩ := nearest x hx
  simpa [Slot.MayTake, xread, imp_iff_not_or] using passed

theorem candidate_isSome_iff : (candidate block behind).isSome = true ↔
    ∃ r ahead after, behind = ahead ++ r :: after ∧ r.MayTake block ∧ ∀ x ∈ ahead, x.isRead = true := by
  constructor
  · intro some
    obtain ⟨r, found⟩ := Option.isSome_iff_exists.1 some
    obtain ⟨ahead, after, split⟩ := List.append_of_mem (List.mem_of_find?_eq_some found)
    have reads : ∀ x ∈ ahead ++ r :: after, x.isRead = true := fun x hx => List.mem_takeWhile_imp (split ▸ hx)
    have may := List.find?_some found
    simp only [Bool.and_eq_true, beq_iff_eq, bne_iff_ne] at may
    refine ⟨r, ahead, after ++ behind.dropWhile Slot.isRead, ?_, ⟨reads r (by simp), may⟩,
      fun x hx => reads x (List.mem_append_left _ hx)⟩
    calc behind = behind.takeWhile Slot.isRead ++ behind.dropWhile Slot.isRead := List.takeWhile_append_dropWhile.symm
      _ = ahead ++ r :: (after ++ behind.dropWhile Slot.isRead) := by simp [split]
  · rintro ⟨r, ahead, after, rfl, ⟨read, queued, other⟩, reads⟩
    rw [candidate_append reads read]
    exact List.find?_isSome.2 ⟨r, by simp, by simp [queued, other]⟩

theorem candidate_eq_none_of_cut
    (cut : ∀ ahead r after, behind = ahead ++ r :: after → r.MayTake block → ∃ x ∈ ahead, x.isRead = false) :
    candidate block behind = none := by
  by_contra some
  obtain ⟨r, ahead, after, split, may, reads⟩ := candidate_isSome_iff.1 (Option.isSome_iff_ne_none.2 some)
  obtain ⟨x, hx, write⟩ := cut ahead r after split may
  exact absurd (reads x hx) (by simp [write])

end Candidates

/-! ### The end of an erase verify (R72 to R77) -/

theorem exec_eraseVerifyEnd {s : State} {b : BankId} {passed : Bool} {u : Turn} (hr : s.heldInReset = false)
    (hs : (s.bank b).step = some (.verify .erase)) (hu : (s.bank b).eraseVerify passed (s.gateAdmits b) = some u) :
    exec (.eraseVerifyEnd b passed) s = .next (s.conclude b u) :=
  State.stepEnd_some (finish := fun bk gate => bk.eraseVerify passed gate) hr hs hu

namespace Bank

theorem outputFree_iff {bk : Bank} : bk.outputFree = true ↔ bk.output.holder = none := Option.isNone_iff_eq_none

section EraseVerify

variable {bk : Bank} {sl : Slot} {behind : List Slot} {suspendable : Bool} (gate : Bool)

/-- A suspension at the boundary: no stop request, and the suspension test passes (R72, R75). -/
theorem suspends_iff : (!sl.stopRequest && bk.suspensionTest sl suspendable behind) = true ↔
    suspendable = true ∧ sl.stopRequest = false ∧ sl.suspensions < 4 ∧ bk.output.holder = none ∧
      ∃ r ahead after, behind = ahead ++ r :: after ∧ r.isRead = true ∧ r.state = .queued ∧ r.block ≠ sl.block ∧
        ∀ x ∈ ahead, x.isRead = true := by
  simp only [suspensionTest, Bool.and_eq_true, Bool.not_eq_true', decide_eq_true_eq, outputFree_iff,
    candidate_isSome_iff, Slot.MayTake, and_assoc]
  exact and_left_comm

variable (hq : bk.queue = sl :: behind) (ho : sl.op = .erase suspendable)

include hq ho

theorem eraseVerify_passed : bk.eraseVerify true gate =
    some (({ bk.atRest with array := bk.array.setEraseComplete sl.block true }).endSlot sl .ok noFlags) := by
  simp [eraseVerify, hq, ho]

theorem eraseVerify_failed_last (hn : 8 ≤ sl.pulses) :
    bk.eraseVerify false gate = some (bk.failHead sl ⟨.eraseFail, none, none⟩) := by
  simp [eraseVerify, hq, ho, eraseLimit, hn]

theorem eraseVerify_failed_before (hn : sl.pulses < 8) : bk.eraseVerify false gate =
    if !sl.stopRequest && bk.suspensionTest sl suspendable behind then
      some (Turn.of { bk.atRest with
        queue := updateTag sl.tag (fun x => { x with state := .suspended, suspensions := x.suspensions + 1 }) bk.queue })
    else some (bk.boundary sl gate) := by
  simp [eraseVerify, hq, ho, eraseLimit, Nat.not_le_of_lt hn]

end EraseVerify

/-! ### The front of a bank whose ERASE is SUSPENDED (R77 to R79) -/

section Suspended

variable {bk : Bank} {sl r : Slot} {behind : List Slot} (hi : bk.internal = none) (hq : bk.queue = sl :: behind)
  (hs : sl.state = .suspended)

section NoneTaken

variable (ho : overtaker behind = none)

include hi hq hs ho

theorem advanceStep_suspended_takes (free : bk.outputFree = true) (hc : candidate sl.block behind = some r) :
    bk.advanceStep = some (bk.startPoint r) := by
  simp [advanceStep, hi, hq, hs, ho, free, hc]

theorem advanceStep_suspended_rests (h : bk.outputFree = false ∨ candidate sl.block behind = none) :
    bk.advanceStep = none := by
  rcases h with held | hc
  · simp [advanceStep, hi, hq, hs, ho, held]
  · simp [advanceStep, hi, hq, hs, ho, hc]

theorem proceed_suspended_resumes : bk.proceed = bk.nextPulse sl := by
  simp [proceed, hi, hq, hs, ho]

theorem reservation_suspended_head : bk.reservation = sl.reservation := by
  simp [reservation, hi, hq, hs, ho]

theorem isRunning_suspended_head : bk.isRunning = false := by
  simp [isRunning, hi, hq, hs, ho]

theorem noteWaiting_suspended_held : bk.noteWaiting = { bk with queue := sl.enterHeld :: behind } := by
  simp [noteWaiting, hi, hq, hs, ho]

end NoneTaken

section Overtaking

variable (ho : overtaker behind = some r)

include hi hq hs ho

theorem advanceStep_overtaking : bk.advanceStep = bk.servePending r := by
  simp [advanceStep, hi, hq, hs, ho]

theorem proceed_overtaking : bk.proceed = bk.beginSense r .read := by
  simp [proceed, hi, hq, hs, ho]

theorem reservation_overtaking : bk.reservation = r.reservation := by
  simp [reservation, hi, hq, hs, ho]

theorem isRunning_overtaking_iff : bk.isRunning = true ↔ r.state = .running := by
  simp [isRunning, hi, hq, hs, ho]

end Overtaking

end Suspended

theorem startPoint_read {bk : Bank} {r : Slot} {w : Nat} {p : Position} (ho : r.op = .read w p) : bk.startPoint r =
    Turn.of { bk with queue := updateTag r.tag (fun x => { x.enterWaiting with path := bk.pathOf x }) bk.queue } := by
  rw [startPoint, startCheck_read ho]

theorem servePending_serves {bk : Bank} {r : Slot} {w : Nat} {p : Position} {ps : PendingSlot} (ho : r.op = .read w p)
    (hs : r.state = .waiting) (hp : r.path = some .pending) (free : bk.outputFree = true) (hps : bk.pendingSlot = some ps) :
    bk.servePending r = some (bk.completeRead r (ps.pages.get p) .ok fromPendingFlag) := by
  simp [servePending, ho, hs, hp, free, pendingPage, hps]

end Bank

theorem Slot.reservation_sensing {r : Slot} {w : Nat} {p : Position} (ho : r.op = .read w p) (hp : r.path = some .sensing) :
    r.reservation = 2 := by
  simp [Slot.reservation, ho, hp]

/-- Settles O29: the verify's end by its result, the pulses given and the suspension test, and the suspended front by whether a
READ has been taken. -/
theorem eraseVerifyEndFollowsItsOrder : Obligations.EraseVerifyEndFollowsItsOrder := by
  constructor
  · intro s b sl behind suspendable hr hs hq ho bk suspends
    refine ⟨exec_eraseVerifyEnd hr hs (Bank.eraseVerify_passed _ hq ho),
      fun hn => exec_eraseVerifyEnd hr hs (Bank.eraseVerify_failed_last _ hq ho hn),
      fun hn test => exec_eraseVerifyEnd hr hs ?suspended, fun hn test => exec_eraseVerifyEnd hr hs ?boundary⟩
    case suspended => exact (Bank.eraseVerify_failed_before _ hq ho hn).trans (if_pos (Bank.suspends_iff.2 test))
    case boundary => exact (Bank.eraseVerify_failed_before _ hq ho hn).trans (if_neg (mt Bank.suspends_iff.1 test))
  · intro bk sl behind hi hq hs taken mayTake
    refine ⟨fun untaken => ?resting, fun ahead r after w p split htaken first ho => ?overtaking⟩
    case resting =>
      have none : overtaker behind = none := overtaker_eq_none_iff.2 untaken
      refine ⟨fun ahead r after w p free split ho may nearest => ?takes, fun stays => ?rests,
        Bank.proceed_suspended_resumes hi hq hs none, Bank.reservation_suspended_head hi hq hs none,
        Bank.isRunning_suspended_head hi hq hs none, Bank.noteWaiting_suspended_held hi hq hs none⟩
      case takes =>
        have chosen : candidate sl.block behind = some r := split ▸ candidate_of_nearest may nearest
        rw [Bank.advanceStep_suspended_takes hi hq hs none (Bank.outputFree_iff.2 free) chosen, Bank.startPoint_read ho]
        rfl
      case rests =>
        exact Bank.advanceStep_suspended_rests hi hq hs none
          (stays.imp (Bank.outputFree_eq_false rfl) candidate_eq_none_of_cut)
    case overtaking =>
      have found : overtaker behind = some r := split ▸ overtaker_of_first_taken htaken first
      have step := Bank.advanceStep_overtaking hi hq hs found
      refine ⟨fun waits pending free ps hps =>
          step.trans (Bank.servePending_serves ho waits pending (Bank.outputFree_iff.2 free) hps),
        fun sensing => ⟨step.trans (Bank.servePending_of_sensing (by simp [sensing])), ?_,
          Bank.isRunning_overtaking_iff hi hq hs found, fun _ => Bank.proceed_overtaking hi hq hs found⟩⟩
      exact (Bank.reservation_overtaking hi hq hs found).trans (Slot.reservation_sensing ho sensing)

end Sys2Proof.Machine

/-! # What a bank draws, and the front it draws at

The gate, a claim and a pause order see of a bank its reservation and whether it runs, and both follow from its internal
operation and from the front of its queue. Behind that front everything is QUEUED, but for the READ that overtakes a SUSPENDED
ERASE: so nothing runs but what the gate has admitted. -/

namespace Sys2Proof.Machine

/-! ### One operation at the front of a queue (R19, R22, R77) -/

/-- Behind the head of a queue everything is QUEUED, but for the READ that overtakes a SUSPENDED head. -/
def Fronted : List Slot → Prop
  | [] => True
  | sl :: behind => ∀ r ∈ behind, r.state = .queued ∨ (sl.state = .suspended ∧ overtaker behind = some r)

theorem overtaker_of_queued {behind : List Slot} (h : ∀ x ∈ behind, x.state = .queued) : overtaker behind = none :=
  List.find?_eq_none.2 fun x hx => by simp [h x hx]

/-- The one slot of a queue that is not QUEUED is the one that overtakes, where it is WAITING or RUNNING. -/
theorem overtaker_of_only {behind : List Slot} {r : Slot} (hr : r ∈ behind) (taken : r.Taken)
    (only : ∀ x ∈ behind, x.state = .queued ∨ x = r) : overtaker behind = some r := by
  cases found : overtaker behind with
  | none => exact absurd taken (overtaker_eq_none_iff.1 found r hr)
  | some y =>
    rcases only y (mem_of_overtaker found) with queued | rfl
    · exact absurd (overtaker_state found) (by simp [queued])
    · rfl

theorem Fronted.of_queued {sl : Slot} {behind : List Slot} (h : ∀ x ∈ behind, x.state = .queued) :
    Fronted (sl :: behind) :=
  fun x hx => .inl (h x hx)

theorem Fronted.of_all_queued {q : List Slot} (h : ∀ x ∈ q, x.state = .queued) : Fronted q := by
  cases q with
  | nil => trivial
  | cons sl behind => exact .of_queued fun x hx => h x (List.mem_cons_of_mem _ hx)

section Behind

variable {sl r : Slot} {behind : List Slot} (front : Fronted (sl :: behind))

include front

theorem Fronted.queued_behind (hs : sl.state ≠ .suspended) : ∀ x ∈ behind, x.state = .queued :=
  fun x hx => (front x hx).resolve_right fun h => hs h.1

theorem Fronted.queued_untaken (none : overtaker behind = none) : ∀ x ∈ behind, x.state = .queued :=
  fun x hx => (front x hx).resolve_right fun h => absurd (none.symm.trans h.2) nofun

theorem Fronted.queued_or_taken (ho : overtaker behind = some r) : ∀ x ∈ behind, x.state = .queued ∨ x = r :=
  fun x hx => (front x hx).imp_right fun h => Option.some.inj (h.2.symm.trans ho)

end Behind

theorem Fronted.map {q : List Slot} (h : Fronted q) {f : Slot → Slot} (hf : ∀ x, (f x).state = x.state) :
    Fronted (q.map f) := by
  cases q with
  | nil => trivial
  | cons sl behind =>
    intro y hy
    obtain ⟨x, hx, rfl⟩ := List.mem_map.1 hy
    rw [hf, hf, overtaker_map hf]
    exact (h x hx).imp_right fun ⟨hs, ho⟩ => ⟨hs, by rw [ho]; rfl⟩

/-- A slot posted at the tail takes nothing from the front. -/
theorem overtaker_append_queued {behind : List Slot} {x : Slot} (hx : x.state = .queued) :
    overtaker (behind ++ [x]) = overtaker behind := by
  simp [overtaker, List.find?_append, hx]

theorem Fronted.append {q : List Slot} (h : Fronted q) {x : Slot} (hx : x.state = .queued) : Fronted (q ++ [x]) := by
  cases q with
  | nil => exact .of_queued (by simp)
  | cons sl behind =>
    intro y hy
    rcases List.mem_append.1 hy with hy | hy
    · exact (h y hy).imp_right fun ⟨hs, ho⟩ => ⟨hs, (overtaker_append_queued hx).trans ho⟩
    · exact .inl (by rw [List.mem_singleton.1 hy, hx])

/-! ### Queues of distinct tags -/

/-- The others stay QUEUED once the one slot that is not has left. -/
theorem queued_removeTag {r : Slot} {behind : List Slot} (only : ∀ x ∈ behind, x.state = .queued ∨ x = r) :
    ∀ x ∈ removeTag r.tag behind, x.state = .queued := by
  intro x hx
  obtain ⟨hx, apart⟩ := mem_removeTag.1 hx
  exact (only x hx).resolve_right fun same => apart (same ▸ rfl)

section Distinct

variable {sl r : Slot} {behind : List Slot} (distinct : ((sl :: behind).map Slot.tag).Nodup)

include distinct

theorem tag_ne_of_behind {x : Slot} (hx : x ∈ behind) : x.tag ≠ sl.tag :=
  fun same => (List.nodup_cons.1 distinct).1 (same ▸ List.mem_map_of_mem hx)

theorem removeTag_head : removeTag sl.tag (sl :: behind) = behind := by
  have others : removeTag sl.tag behind = behind :=
    List.filter_eq_self.2 fun x hx => bne_iff_ne.2 (tag_ne_of_behind distinct hx)
  exact (List.filter_cons_of_neg (by simp)).trans others

theorem removeTag_behind (hr : r ∈ behind) : removeTag r.tag (sl :: behind) = sl :: removeTag r.tag behind :=
  List.filter_cons_of_pos (bne_iff_ne.2 (tag_ne_of_behind distinct hr).symm)

theorem updateTag_behind (hr : r ∈ behind) (f : Slot → Slot) :
    updateTag r.tag f (sl :: behind) = sl :: updateTag r.tag f behind :=
  congrArg₂ List.cons (if_neg (tag_ne_of_behind distinct hr).symm) rfl

/-- The READ that a change takes, or lets go on, overtakes the head. -/
theorem overtaker_updateTag_only (hr : r ∈ behind) (only : ∀ x ∈ behind, x.state = .queued ∨ x = r) {f : Slot → Slot}
    (taken : (f r).Taken) :
    overtaker (updateTag r.tag f behind) = some (f r) ∧
      ∀ x ∈ updateTag r.tag f behind, x.state = .queued ∨ x = f r := by
  have tags : (behind.map Slot.tag).Nodup := (List.nodup_cons.1 distinct).2
  have only' : ∀ x ∈ updateTag r.tag f behind, x.state = .queued ∨ x = f r := by
    intro y hy
    obtain ⟨x, hx, rfl⟩ := List.mem_map.1 hy
    by_cases same : x.tag = r.tag
    · exact .inr (by rw [if_pos same, eq_of_tag_eq tags hx hr same])
    · rw [if_neg same]
      exact .inl ((only x hx).resolve_right fun eq => same (eq ▸ rfl))
  exact ⟨overtaker_of_only (List.mem_map.2 ⟨r, hr, if_pos rfl⟩) taken only', only'⟩

end Distinct

/-! ### What a bank draws (R85 to R87) -/

/-- What the gate and the claims see of a bank: whether an internal operation stands ahead, whether the front runs, and the bank
reservation. -/
def Bank.power (bk : Bank) : Bool × Bool × Nat := (bk.internal.isNone, bk.isRunning, bk.reservation)

section Power

variable {bk u : Bank} (h : u.power = bk.power)

include h

theorem Bank.internal_of_power : u.internal.isNone = bk.internal.isNone := congrArg Prod.fst h

theorem Bank.isRunning_of_power : u.isRunning = bk.isRunning := congrArg (fun p => p.2.1) h

theorem Bank.reservation_of_power : u.reservation = bk.reservation := congrArg (fun p => p.2.2) h

theorem Bank.runningReservation_of_power : u.runningReservation = bk.runningReservation := by
  rw [Bank.runningReservation, Bank.runningReservation, isRunning_of_power h, reservation_of_power h]

theorem Bank.isWaiting_of_power : u.isWaiting = bk.isWaiting := by
  rw [Bank.isWaiting, Bank.isWaiting, isRunning_of_power h, reservation_of_power h]

theorem Bank.hostRunning_of_power : u.hostRunning = bk.hostRunning := by
  rw [Bank.hostRunning, Bank.hostRunning, isRunning_of_power h, internal_of_power h]

end Power

namespace Bank

variable {bk u : Bank} {sl r : Slot} {behind : List Slot}

theorem power_of_internal {i : Internal} (hi : bk.internal = some i) :
    bk.power = (false, i.begun, i.op.reservation) := by
  simp [power, isRunning, reservation, hi]

/-- An internal operation's front is the operation and no slot. -/
theorem power_of_same_internal (ahead : bk.internal ≠ none) (hi : u.internal = bk.internal) : u.power = bk.power := by
  obtain ⟨i, some⟩ := Option.ne_none_iff_exists'.1 ahead
  rw [power_of_internal some, power_of_internal (hi.trans some)]

theorem power_of_nil (hi : bk.internal = none) (hq : bk.queue = []) : bk.power = (true, false, 0) := by
  simp [power, isRunning, reservation, hi, hq]

/-- A front is as its head's state and reservation and those of the READ that overtakes it. -/
theorem power_congr {sl' : Slot} {behind' : List Slot} (hi : bk.internal = none) (hu : u.internal = none)
    (hq : bk.queue = sl :: behind) (hq' : u.queue = sl' :: behind') (state : sl'.state = sl.state)
    (reserves : sl'.reservation = sl.reservation)
    (taken : (overtaker behind').map (fun r => (r.state, r.reservation)) =
      (overtaker behind).map fun r => (r.state, r.reservation)) : u.power = bk.power := by
  simp only [power, isRunning, reservation, hi, hu, hq, hq', state, reserves]
  cases sl.state <;> try rfl
  cases ho : overtaker behind <;> cases ho' : overtaker behind' <;> simp_all

theorem isRunning_of_queued (hi : bk.internal = none) (h : ∀ x ∈ bk.queue, x.state = .queued) : bk.isRunning = false := by
  cases hq : bk.queue with
  | nil => simp [isRunning, hi, hq]
  | cons sl behind =>
    have queued : sl.state = .queued := h sl (hq ▸ List.mem_cons_self)
    simp [isRunning, hi, hq, queued]

/-- A head that neither runs nor is SUSPENDED runs nothing. -/
theorem isRunning_of_still (hi : bk.internal = none) (hq : bk.queue = sl :: behind) (hr : sl.state ≠ .running)
    (hs : sl.state ≠ .suspended) : bk.isRunning = false := by
  cases run : bk.isRunning with
  | false => rfl
  | true =>
    rcases isRunning_iff.1 run with ⟨i, hi', -⟩ | ⟨-, sl', behind', hq', running | ⟨suspended, -⟩⟩
    · exact absurd (hi.symm.trans hi') nofun
    all_goals
      obtain ⟨rfl, -⟩ : sl = sl' ∧ behind = behind' := by simpa using hq.symm.trans hq'
      contradiction

end Bank

/-! ### Nothing more is given than before -/

/-- A bank whose front runs nothing, with one operation at most at its front. -/
structure Bank.Still (bk : Bank) : Prop where
  front : Fronted bk.queue
  rests : bk.isRunning = false

namespace Bank.Still

variable {bk u : Bank} {sl r : Slot} {behind : List Slot}

theorem of_queued (hi : bk.internal = none) (h : ∀ x ∈ bk.queue, x.state = .queued) : bk.Still :=
  ⟨.of_all_queued h, isRunning_of_queued hi h⟩

theorem of_unbegun {op : InternalOp} (hi : bk.internal = some ⟨op, false⟩) (front : Fronted bk.queue) : bk.Still :=
  ⟨front, by simp [isRunning, hi]⟩

/-- A head that waits, is HELD, records or holds the sense latch, with everything behind it QUEUED. -/
theorem of_head (hi : bk.internal = none) (hq : bk.queue = sl :: behind) (hr : sl.state ≠ .running)
    (hs : sl.state ≠ .suspended) (queued : ∀ x ∈ behind, x.state = .queued) : bk.Still :=
  ⟨hq ▸ .of_queued queued, isRunning_of_still hi hq hr hs⟩

theorem of_suspended (hi : bk.internal = none) (hq : bk.queue = sl :: behind) (hs : sl.state = .suspended)
    (queued : ∀ x ∈ behind, x.state = .queued) : bk.Still :=
  ⟨hq ▸ .of_queued queued, isRunning_suspended_head hi hq hs (overtaker_of_queued queued)⟩

/-- A READ that overtakes a SUSPENDED head and has not begun. -/
theorem of_overtaking (hi : bk.internal = none) (hq : bk.queue = sl :: behind) (hs : sl.state = .suspended)
    (ho : overtaker behind = some r) (hr : r.state ≠ .running) (only : ∀ x ∈ behind, x.state = .queued ∨ x = r) :
    bk.Still where
  front := hq ▸ fun x hx => (only x hx).imp_right fun same => ⟨hs, by rw [same, ho]⟩
  rests := eq_false_of_ne_true (mt (isRunning_overtaking_iff hi hq hs ho).1 hr)

end Bank.Still

/-! ### Start points and completions (R24, R36, R42, R77) -/

namespace Bank

variable {bk : Bank} {sl r : Slot} {behind : List Slot} {u : Turn}

/-- A start point ends the operation or makes it WAITING. -/
theorem startPoint_queue (bk : Bank) (sl : Slot) : (bk.startPoint sl).bank.internal = bk.internal ∧
    ((bk.startPoint sl).bank.queue = removeTag sl.tag bk.queue ∨
      ∃ f : Slot → Slot, (∀ x, (f x).state = .waiting) ∧ (bk.startPoint sl).bank.queue = updateTag sl.tag f bk.queue) := by
  unfold startPoint
  split
  · exact ⟨rfl, .inl rfl⟩
  · exact ⟨rfl, .inr ⟨_, fun _ => rfl, rfl⟩⟩

theorem servePending_queue (h : bk.servePending sl = some u) :
    sl.state = .waiting ∧ u.bank.internal = bk.internal ∧ u.bank.queue = removeTag sl.tag bk.queue := by
  unfold servePending at h
  split at h
  · split at h
    · cases h
      rename_i served
      exact ⟨served.1, rfl, rfl⟩
    · cases h
  all_goals cases h

theorem completeWaiting_queue (h : bk.completeWaiting sl = some u) :
    u.bank.internal = bk.internal ∧ u.bank.queue = removeTag sl.tag bk.queue := by
  unfold completeWaiting at h
  split at h
  · cases h
  · split at h <;> cases h
    exact ⟨rfl, rfl⟩

/-- What follows at once at the front of a bank that runs nothing begins nothing. -/
theorem Still.advanceStep (still : bk.Still) (distinct : (bk.queue.map Slot.tag).Nodup) (h : bk.advanceStep = some u) :
    u.bank.Still := by
  obtain ⟨front, rests⟩ := still
  obtain ⟨hi, sl, behind, hq, hc⟩ := advanceStep_cases h
  rw [hq] at front distinct
  have ended (hs : sl.state ≠ .suspended) (hi' : u.bank.internal = bk.internal)
      (hq' : u.bank.queue = removeTag sl.tag bk.queue) : u.bank.Still := by
    refine .of_queued (hi'.trans hi) ?_
    rw [hq', hq, removeTag_head distinct]
    exact front.queued_behind hs
  have left (hs : sl.state = .suspended) {r : Slot} (hr : r ∈ behind) (only : ∀ x ∈ behind, x.state = .queued ∨ x = r)
      (hi' : u.bank.internal = bk.internal) (hq' : u.bank.queue = removeTag r.tag bk.queue) : u.bank.Still := by
    rw [hq, removeTag_behind distinct hr] at hq'
    exact .of_suspended (hi'.trans hi) hq' hs (queued_removeTag only)
  rcases hc with ⟨hs, rfl⟩ | ⟨hs, served⟩ | ⟨hs, completed⟩ | ⟨hs, r, ho, served⟩ | ⟨hs, none, -, r, found, rfl⟩
  · obtain ⟨hi', hq' | ⟨f, hf, hq'⟩⟩ := startPoint_queue bk sl
    · exact ended (by simp [hs]) hi' hq'
    · rw [hq, updateTag_head (fun x hx => tag_ne_of_behind distinct hx)] at hq'
      exact .of_head (hi'.trans hi) hq' (by simp [hf]) (by simp [hf]) (front.queued_behind (by simp [hs]))
  · obtain ⟨-, hi', hq'⟩ := servePending_queue served
    exact ended (by simp [hs]) hi' hq'
  · obtain ⟨hi', hq'⟩ := completeWaiting_queue completed
    exact ended (by simp [hs]) hi' hq'
  · obtain ⟨-, hi', hq'⟩ := servePending_queue served
    exact left hs (mem_of_overtaker ho) (front.queued_or_taken ho) hi' hq'
  · have hr : r ∈ behind := mem_of_candidate found
    have only : ∀ x ∈ behind, x.state = .queued ∨ x = r := fun x hx => .inl (front.queued_untaken none x hx)
    obtain ⟨hi', hq' | ⟨f, hf, hq'⟩⟩ := startPoint_queue bk r
    · exact left hs hr only hi' hq'
    · rw [hq, updateTag_behind distinct hr] at hq'
      obtain ⟨ho, only'⟩ := overtaker_updateTag_only distinct hr only (f := f) (.inl (hf r))
      exact .of_overtaking (hi'.trans hi) hq' hs ho (by simp [hf]) only'

theorem Still.advance {b : BankId} {tags : List Byte} (n : Nat) {t : Turn} (sound : t.Accounts b tags)
    (still : t.bank.Still) : (Bank.advance n t).bank.Still := by
  induction n generalizing t tags with
  | zero => exact still
  | succ n ih =>
    unfold Bank.advance
    split
    · exact still
    · rename_i u hu
      have next : Turn.Accounts ⟨u.bank, t.ended ++ u.ended⟩ b tags := sound.andThen (sound.rest.advanceStep hu)
      have stays : u.bank.Still := still.advanceStep sound.queue_distinct hu
      exact ih next stays

/-! ### What the gate lets go on (R37, R57, R68, R79, R88) -/

/-- A bank in which the slots of a tag have become RUNNING, with their kinds and paths as they were, and no internal operation has
come or gone. -/
def Goes (bk u : Bank) (tag : Byte) : Prop :=
  u.internal = bk.internal ∧
    ∃ f : Slot → Slot, (∀ x, (f x).state = .running ∧ (f x).reservation = x.reservation) ∧ u.queue = updateTag tag f bk.queue

theorem Goes.of_pulse {u : Bank} (hi : u.internal = bk.internal) {n : Nat}
    (hq : u.queue = updateTag sl.tag (fun x => x.pulsed n) bk.queue) : bk.Goes u sl.tag :=
  ⟨hi, fun x => x.pulsed n, fun _ => ⟨rfl, rfl⟩, hq⟩

theorem beginSense_goes (bk : Bank) (sl : Slot) (use : SenseUse) : bk.Goes (bk.beginSense sl use) sl.tag :=
  ⟨rfl, fun x => { x with state := .running }, fun _ => ⟨rfl, rfl⟩, rfl⟩

theorem nextPulse_goes (bk : Bank) (sl : Slot) : bk.nextPulse sl = bk ∨ bk.Goes (bk.nextPulse sl) sl.tag := by
  unfold nextPulse
  split
  · exact .inl rfl
  · split <;> exact .inr (.of_pulse rfl rfl)
  · split
    · exact .inl rfl
    · exact .inr (.of_pulse rfl rfl)
  · exact .inr (.of_pulse rfl rfl)

theorem beginHost_goes (bk : Bank) (sl : Slot) : bk.beginHost sl = bk ∨ bk.Goes (bk.beginHost sl) sl.tag := by
  unfold beginHost
  split
  · exact .inr (bk.beginSense_goes sl _)
  · split
    · exact .inr (bk.beginSense_goes sl _)
    · exact .inr (.of_pulse rfl rfl)
  · split
    · exact .inl rfl
    · exact .inr (.of_pulse rfl rfl)
  · exact .inr (.of_pulse rfl rfl)

theorem beginInternal_internal (bk : Bank) (op : InternalOp) :
    (bk.beginInternal op).queue = bk.queue ∧
      ∃ op' : InternalOp, (bk.beginInternal op).internal = some ⟨op', true⟩ ∧ op'.reservation = op.reservation := by
  cases op <;> exact ⟨rfl, _, rfl, rfl⟩

/-- A head that begins or goes on: the reservation is as it was, and nothing else stands at the front. -/
theorem Goes.head {u : Bank} (hi : bk.internal = none) (hq : bk.queue = sl :: behind)
    (distinct : (bk.queue.map Slot.tag).Nodup) (queued : ∀ x ∈ behind, x.state = .queued) (go : bk.Goes u sl.tag) :
    Fronted u.queue ∧ u.power = (true, true, sl.reservation) := by
  obtain ⟨hi', f, hf, hq'⟩ := go
  rw [hq] at distinct
  rw [hq, updateTag_head (fun x hx => tag_ne_of_behind distinct hx)] at hq'
  refine ⟨hq' ▸ .of_queued queued, ?_⟩
  simp [power, isRunning, reservation, hi'.trans hi, hq', hf sl]

/-- The READ that overtakes begins: the reservation is as it was, and it overtakes still. -/
theorem Goes.overtaking {u : Bank} (hi : bk.internal = none) (hq : bk.queue = sl :: behind)
    (distinct : (bk.queue.map Slot.tag).Nodup) (front : Fronted bk.queue) (hs : sl.state = .suspended)
    (ho : overtaker behind = some r) (go : bk.Goes u r.tag) :
    Fronted u.queue ∧ u.power = (true, true, r.reservation) := by
  obtain ⟨hi', f, hf, hq'⟩ := go
  rw [hq] at distinct front
  rw [hq, updateTag_behind distinct (mem_of_overtaker ho)] at hq'
  obtain ⟨ho', only⟩ := overtaker_updateTag_only distinct (mem_of_overtaker ho) (front.queued_or_taken ho)
    (f := f) (.inr (hf r).1)
  refine ⟨hq' ▸ fun x hx => (only x hx).imp_right fun same => ⟨hs, by rw [same, ho']⟩, ?_⟩
  simp [power, isRunning, reservation, hi'.trans hi, hq', hs, ho', hf r]

/-- What the gate lets go on reserves what it reserved while it waited. -/
theorem proceed_power (distinct : (bk.queue.map Slot.tag).Nodup) (front : Fronted bk.queue) (rests : bk.isRunning = false) :
    Fronted bk.proceed.queue ∧
      (bk.proceed = bk ∨ bk.proceed.power = (bk.internal.isNone, true, bk.reservation)) := by
  unfold proceed
  split
  · rename_i i hi
    obtain ⟨queue, op', hi', reserves⟩ := beginInternal_internal bk i.op
    exact ⟨queue ▸ front, .inr (by rw [power_of_internal hi', reserves]; simp [reservation, hi])⟩
  · rename_i hi
    split
    · exact ⟨front, .inl rfl⟩
    · rename_i sl behind hq
      have shaped : Fronted (sl :: behind) := hq ▸ front
      have head {u : Bank} (reserves : bk.reservation = sl.reservation) (queued : ∀ x ∈ behind, x.state = .queued)
          (go : u = bk ∨ bk.Goes u sl.tag) :
          Fronted u.queue ∧ (u = bk ∨ u.power = (bk.internal.isNone, true, bk.reservation)) := by
        rcases go with rfl | go
        · exact ⟨front, .inl rfl⟩
        · obtain ⟨front', power⟩ := go.head hi hq distinct queued
          exact ⟨front', .inr (by rw [power, reserves, hi]; rfl)⟩
      split
      · rename_i hs
        exact head (by simp [reservation, hi, hq, hs]) (shaped.queued_behind (by simp [hs])) (bk.beginHost_goes sl)
      · rename_i hs
        exact head (by simp [reservation, hi, hq, hs]) (shaped.queued_behind (by simp [hs])) (bk.nextPulse_goes sl)
      · rename_i hs
        split
        · rename_i r ho
          obtain ⟨front', power⟩ := (bk.beginSense_goes r .read).overtaking hi hq distinct front hs ho
          exact ⟨front', .inr (by rw [power, reservation_overtaking hi hq hs ho, hi]; rfl)⟩
        · rename_i none
          exact head (reservation_suspended_head hi hq hs none) (shaped.queued_untaken none) (bk.nextPulse_goes sl)
      all_goals exact ⟨front, .inl rfl⟩

/-! ### What waits (R25, R79) -/

theorem noteWaiting_state (sl : Slot) : sl.noteWaiting.state = sl.state ∧ sl.noteWaiting.reservation = sl.reservation := by
  unfold Slot.noteWaiting
  split <;> exact ⟨rfl, rfl⟩

end Bank

/-- A change of slots that leaves their states and what they reserve. -/
structure SlotKept (f : Slot → Slot) : Prop where
  tag : ∀ x, (f x).tag = x.tag
  state : ∀ x, (f x).state = x.state
  reservation : ∀ x, (f x).reservation = x.reservation

theorem SlotKept.ite {f : Slot → Slot} (h : SlotKept f) (p : Slot → Prop) [DecidablePred p] :
    SlotKept fun x => if p x then f x else x where
  tag x := by split; exacts [h.tag x, rfl]
  state x := by split; exacts [h.state x, rfl]
  reservation x := by split; exacts [h.reservation x, rfl]

theorem SlotKept.noteWaiting : SlotKept Slot.noteWaiting where
  tag x := by unfold Slot.noteWaiting; split <;> rfl
  state x := (Bank.noteWaiting_state x).1
  reservation x := (Bank.noteWaiting_state x).2

namespace Bank

variable {bk u : Bank}

/-- Slots that keep their states and reservations draw what they drew. -/
theorem power_map {f : Slot → Slot} (hf : SlotKept f) (hi : u.internal = bk.internal) (hq : u.queue = bk.queue.map f) :
    u.power = bk.power := by
  cases internal : bk.internal with
  | some i => exact power_of_same_internal (by simp [internal]) hi
  | none =>
    cases queue : bk.queue with
    | nil => rw [power_of_nil internal queue, power_of_nil (hi.trans internal) (by rw [hq, queue]; rfl)]
    | cons sl behind =>
      refine power_congr internal (hi.trans internal) queue (hq.trans (by rw [queue]; rfl)) (hf.state sl)
        (hf.reservation sl) ?_
      rw [overtaker_map hf.state, Option.map_map]
      simp [Function.comp_def, hf.state, hf.reservation]

/-- Noting what waits changes nothing of what a bank draws. -/
theorem noteWaiting_power (front : Fronted bk.queue) :
    Fronted bk.noteWaiting.queue ∧ bk.noteWaiting.power = bk.power := by
  rcases Settles.noteWaiting_cases bk with same | noted | ⟨hi, sl, behind, hq, hs, none, resumed⟩
  · exact same.symm ▸ ⟨front, rfl⟩
  · have queue : bk.noteWaiting.queue = bk.queue.map Slot.noteWaiting := by rw [noted]
    have internal : bk.noteWaiting.internal = bk.internal := by rw [noted]
    exact ⟨queue ▸ front.map SlotKept.noteWaiting.state, power_map .noteWaiting internal queue⟩
  · have queued : ∀ x ∈ behind, x.state = .queued := (hq ▸ front : Fronted (sl :: behind)).queued_untaken none
    rw [resumed]
    refine ⟨.of_queued queued, ?_⟩
    have before : bk.power = (true, false, sl.reservation) := by
      rw [power, isRunning_suspended_head hi hq hs none, reservation_suspended_head hi hq hs none, hi]
      rfl
    rw [before, power, isRunning, reservation, hi]
    rfl

end Bank

end Sys2Proof.Machine

/-! # Nothing more is given than before

What a command does to a bank of itself gives nothing more current than before: nothing runs at its front, or the same goes on as
ran. Only the gate begins or resumes anything. -/

namespace Sys2Proof.Machine

/-- After the change nothing runs at the front of the bank, or it draws what it drew. -/
structure Bank.Eases (bk u : Bank) : Prop where
  front : Fronted u.queue
  runs : u.isRunning = false ∨ u.power = bk.power

/-- The end of a step eases the bank, and its host operation goes on over a pause order only where the gate lets it. -/
structure Bank.Ends (gate : Bool) (bk u : Bank) : Prop extends bk.Eases u where
  order : u.hostRunning = true → bk.pauseOrder = true → gate = true

/-- A change that leaves what a bank draws: no internal operation and no pause order comes or goes, and the slots keep their states
and their reservations. -/
structure Bank.Kept (bk u : Bank) : Prop where
  internal : u.internal = bk.internal
  order : u.pauseOrder = bk.pauseOrder
  queue : ∃ f, SlotKept f ∧ u.queue = bk.queue.map f

namespace Bank

variable {bk u x : Bank} {sl r : Slot} {behind : List Slot} {gate : Bool}

theorem Kept.of_same (hi : u.internal = bk.internal) (ho : u.pauseOrder = bk.pauseOrder) (hq : u.queue = bk.queue) :
    bk.Kept u :=
  ⟨hi, ho, id, ⟨fun _ => rfl, fun _ => rfl, fun _ => rfl⟩, hq.trans (List.map_id _).symm⟩

theorem Kept.refl (bk : Bank) : bk.Kept bk := .of_same rfl rfl rfl

theorem Kept.power (h : bk.Kept u) : u.power = bk.power := by
  obtain ⟨f, hf, hq⟩ := h.queue
  exact power_map hf h.internal hq

theorem Kept.front (h : bk.Kept u) (front : Fronted bk.queue) : Fronted u.queue := by
  obtain ⟨f, hf, hq⟩ := h.queue
  exact hq ▸ front.map hf.state

theorem Kept.eases (h : bk.Kept u) (front : Fronted bk.queue) : bk.Eases u := ⟨h.front front, .inr h.power⟩

theorem Still.eases (h : u.Still) : bk.Eases u := ⟨h.front, .inl h.rests⟩

theorem Still.ends (h : u.Still) : bk.Ends gate u where
  toEases := h.eases
  order run := by simp [hostRunning, h.rests] at run

/-- What eases a bank eases what it drew. -/
theorem Eases.runningReservation_le (h : bk.Eases u) : u.runningReservation ≤ bk.runningReservation := by
  rcases h.runs with rests | same
  · simp [runningReservation, rests]
  · exact (runningReservation_of_power same).le

theorem Eases.power_of_runs (h : bk.Eases u) (run : u.isRunning = true) : u.power = bk.power :=
  h.runs.resolve_left (by simp [run])

theorem isRunning_of_hostRunning (h : bk.hostRunning = true) : bk.isRunning = true := by
  simp only [hostRunning, Bool.and_eq_true] at h
  exact h.2

theorem Eases.hostRunning (h : bk.Eases u) (run : u.hostRunning = true) : bk.hostRunning = true := by
  rw [← hostRunning_of_power (h.power_of_runs (isRunning_of_hostRunning run)), run]

/-- The end of a step says the same of a bank that differs in stores alone. -/
theorem Ends.of_same (hi : x.internal = bk.internal) (ho : x.pauseOrder = bk.pauseOrder) (hq : x.queue = bk.queue)
    (h : x.Ends gate u) : bk.Ends gate u where
  front := h.front
  runs := h.runs.imp_right fun same => same.trans (Kept.of_same hi ho hq).power
  order run order := h.order run (ho.trans order)

/-! ### A coherent front (R19, R23, R76, R77) -/

theorem isQueued_iff {sl : Slot} : sl.isQueued = true ↔ sl.state = .queued := by simp [Slot.isQueued]

/-- Behind a SUSPENDED ERASE stands the READ that overtakes it. -/
theorem oneOvertakes_taken {block : Nat} (h : oneOvertakes block behind = true) :
    ∃ r, overtaker behind = some r ∧ ∀ x ∈ behind, x.state = .queued ∨ x = r := by
  simp only [oneOvertakes, Bool.and_eq_true, decide_eq_true_eq, List.any_eq_true] at h
  obtain ⟨one, r, hr, taken, -⟩ := h
  obtain ⟨z, hz⟩ := List.length_eq_one_iff.1 one
  have mem : r ∈ behind := (List.takeWhile_sublist _).subset hr
  have taken : r.Taken := by
    simp only [Slot.overtakes, Bool.and_eq_true, Bool.or_eq_true, decide_eq_true_eq] at taken
    exact taken.2.imp_right And.left
  have active {y : Slot} (hy : y ∈ behind) (hs : y.state ≠ .queued) : y = z := by
    have : y ∈ behind.filter fun sl => !sl.isQueued := List.mem_filter.2 ⟨hy, by simpa [Slot.isQueued] using hs⟩
    simpa [hz] using this
  have only : ∀ x ∈ behind, x.state = .queued ∨ x = r := by
    intro y hy
    by_cases hs : y.state = .queued
    · exact .inl hs
    · exact .inr ((active hy hs).trans (active mem (by rcases taken with h | h <;> simp [h])).symm)
  exact ⟨r, overtaker_of_only mem taken only, only⟩

end Bank

theorem Fronted.of_frontShaped {sl : Slot} {behind : List Slot} (h : frontShaped sl behind = true) : Fronted (sl :: behind) := by
  have all (h : behind.all Slot.isQueued = true) : Fronted (sl :: behind) :=
    .of_queued fun x hx => Bank.isQueued_iff.1 (List.all_eq_true.1 h x hx)
  unfold frontShaped at h
  split at h
  · cases h
  · exact all h
  · exact all (Bool.and_eq_true_iff.1 h).1
  · exact all (Bool.and_eq_true_iff.1 h).1
  · rename_i hs
    obtain ⟨r, ho, only⟩ := Bank.oneOvertakes_taken (Bool.and_eq_true_iff.1 h).2
    exact fun x hx => (only x hx).imp_right fun same => ⟨hs, by rw [same, ho]⟩
  · exact all (Bool.and_eq_true_iff.1 h).1
  · cases h
  · cases h

namespace Bank

variable {bk u x : Bank} {sl r : Slot} {behind : List Slot} {gate : Bool}

/-- The queue behind an internal operation: QUEUED throughout for a MAP_LOAD, and a RECORDING head for a map write. -/
theorem queue_of_internal {i : Internal} (shaped : bk.queueShaped = true) (hi : bk.internal = some i) :
    ((∃ scan, i.op = .mapLoad scan) ∧ ∀ x ∈ bk.queue, x.state = .queued) ∨
      ((∀ scan, i.op ≠ .mapLoad scan) ∧
        ∃ sl behind, bk.queue = sl :: behind ∧ sl.state = .recording ∧ ∀ x ∈ behind, x.state = .queued) := by
  unfold queueShaped at shaped
  split at shaped
  · rename_i scan begun load
    obtain rfl := Option.some.inj (hi.symm.trans load)
    exact .inl ⟨⟨scan, rfl⟩, fun x hx => isQueued_iff.1 (List.all_eq_true.1 shaped x hx)⟩
  · rename_i j hj other
    obtain rfl : i = j := Option.some.inj (hi.symm.trans other)
    split at shaped
    · cases shaped
    · rename_i sl behind hq
      simp only [Bool.and_eq_true, decide_eq_true_eq] at shaped
      refine .inr ⟨fun scan load => ?_, sl, behind, hq, shaped.1.1, fun x hx => isQueued_iff.1 (List.all_eq_true.1 shaped.2 x hx)⟩
      exact hj scan i.begun (load ▸ rfl)
  · rename_i none
    exact absurd (hi.symm.trans none) nofun

theorem fronted_of_shaped (shaped : bk.queueShaped = true) : Fronted bk.queue := by
  cases hi : bk.internal with
  | some i =>
    rcases queue_of_internal shaped hi with ⟨-, queued⟩ | ⟨-, sl, behind, hq, -, queued⟩
    · exact .of_all_queued queued
    · exact hq ▸ .of_queued queued
  | none =>
    cases hq : bk.queue with
    | nil => trivial
    | cons sl behind => exact .of_frontShaped (by simpa [queueShaped, hi, hq] using shaped)

/-- What the ends of steps use of a coherent bank. -/
structure Sound (bk : Bank) : Prop where
  distinct : (bk.queue.map Slot.tag).Nodup
  shaped : bk.queueShaped = true
  step : bk.stepFits = true
  latch : bk.latchFits = true

theorem Sound.of_coherent (distinct : (bk.queue.map Slot.tag).Nodup) (h : bk.coherent = true) : bk.Sound := by
  simp only [coherent, Bool.and_eq_true] at h
  obtain ⟨⟨⟨⟨⟨⟨⟨⟨⟨shaped, -⟩, step⟩, -⟩, -⟩, -⟩, -⟩, -⟩, latch⟩, -⟩ := h
  exact ⟨distinct, shaped, step, latch⟩

namespace Sound

variable (sound : bk.Sound)

include sound

theorem front : Fronted bk.queue := fronted_of_shaped sound.shaped

theorem apart (hq : bk.queue = sl :: behind) : ∀ x ∈ behind, x.tag ≠ sl.tag :=
  fun _ hx => tag_ne_of_behind (hq ▸ sound.distinct) hx

theorem queued_behind (hq : bk.queue = sl :: behind) (hs : sl.state ≠ .suspended) : ∀ x ∈ behind, x.state = .queued :=
  (hq ▸ sound.front : Fronted (sl :: behind)).queued_behind hs

theorem step_mem {st : Step} (hs : bk.step = some st) : ∃ sts, bk.stepsOfFront = some sts ∧ st ∈ sts := by
  have fits := sound.step
  unfold stepFits at fits
  rw [hs] at fits
  cases front : bk.stepsOfFront with
  | none => simp [front] at fits
  | some sts => exact ⟨sts, rfl, by simpa [front] using fits⟩

/-- The end of a sense for a host operation finds it RUNNING: the head, or the READ that overtakes. -/
theorem host_of_step {st : Step} (hs : bk.step = some st)
    (host : st = .sense .read ∨ st = .sense .blankCheck ∨ st = .verify .coarse ∨ st = .verify .fine ∨ st = .verify .erase) :
    bk.internal = none ∧ ∃ sl behind, bk.queue = sl :: behind ∧
      (sl.state = .running ∨
        (st = .sense .read ∧ sl.state = .suspended ∧ ∃ r, overtaker behind = some r ∧ r.state = .running)) := by
  obtain ⟨sts, steps, mem⟩ := sound.step_mem hs
  unfold stepsOfFront at steps
  cases hi : bk.internal with
  | some i =>
    simp only [hi] at steps
    split at steps
    · (split at steps) <;> cases steps <;> rcases host with h | h | h | h | h <;> simp [h] at mem
    · cases steps
  | none =>
    simp only [hi] at steps
    split at steps
    · rename_i run
      rcases isRunning_iff.1 run with ⟨i, hi', -⟩ | ⟨-, sl, behind, hq, running | suspended⟩
      · exact absurd (hi.symm.trans hi') nofun
      · exact ⟨rfl, sl, behind, hq, .inl running⟩
      · refine ⟨rfl, sl, behind, hq, .inr ⟨?_, suspended⟩⟩
        simp only [hq, suspended.1, Option.some.injEq] at steps
        simpa [← steps] using mem
    · cases steps

/-- A head whose verify or blank check ends is RUNNING. -/
theorem head_of_step {st : Step} (hs : bk.step = some st)
    (host : st = .sense .blankCheck ∨ st = .verify .coarse ∨ st = .verify .fine ∨ st = .verify .erase)
    (hq : bk.queue = sl :: behind) : bk.internal = none ∧ sl.state = .running := by
  obtain ⟨hi, sl', behind', hq', running | ⟨read, -⟩⟩ := sound.host_of_step hs (.inr host)
  · obtain ⟨rfl, -⟩ : sl = sl' ∧ behind = behind' := by simpa using hq.symm.trans hq'
    exact ⟨hi, running⟩
  · rcases host with h | h | h | h <;> cases read.symm.trans h

/-- A step of the map's own finds its internal operation begun. -/
theorem begun_of_step {st : Step} {i : Internal} (hs : bk.step = some st) (hi : bk.internal = some i) : i.begun = true := by
  obtain ⟨sts, steps, -⟩ := sound.step_mem hs
  simp only [stepsOfFront, hi] at steps
  cases begun : i.begun with
  | true => rfl
  | false => simp [begun] at steps

end Sound

/-! ### Boundaries and failures (R32, R64 to R67, R96, R162) -/

section Head

variable (hq : bk.queue = sl :: behind) (apart : ∀ x ∈ behind, x.tag ≠ sl.tag)
  (queued : ∀ x ∈ behind, x.state = .queued)

include hq apart queued

/-- The head ends, and what stands behind it is QUEUED. -/
theorem ended_still (hi : u.internal = none) (hq' : u.queue = removeTag sl.tag bk.queue) : u.Still := by
  refine .of_queued hi ?_
  have left : removeTag sl.tag (sl :: behind) = behind := by
    refine (List.filter_cons_of_neg (by simp)).trans ?_
    exact List.filter_eq_self.2 fun x hx => bne_iff_ne.2 (apart x hx)
  rw [hq', hq, left]
  exact queued

theorem updateHead_still {f : Slot → Slot} (hr : (f sl).state ≠ .running) (hs : (f sl).state ≠ .suspended)
    (hu : u.internal = none) (hq' : u.queue = updateTag sl.tag f bk.queue) : u.Still := by
  rw [hq, updateTag_head apart] at hq'
  exact .of_head hu hq' hr hs queued

theorem boundary_ends (hi : bk.internal = none) (run : sl.state = .running) (gate : Bool) :
    bk.Ends gate (bk.boundary sl gate).bank := by
  by_cases stop : sl.stopRequest = true
  case pos =>
    have kept : (bk.atRest.stopStores sl).internal = none ∧ (bk.atRest.stopStores sl).queue = sl :: behind := by
      unfold stopStores
      (repeat' split) <;> exact ⟨hi, hq⟩
    rw [boundary_stop stop]
    exact Still.ends (ended_still kept.2 apart queued kept.1 rfl)
  case neg =>
    rw [Bool.not_eq_true] at stop
    by_cases paused : bk.pauseOrder = true ∧ gate = false
    case pos =>
      rw [boundary_pause stop paused.1 paused.2]
      exact Still.ends (updateHead_still hq apart queued (f := Slot.enterHeld) nofun nofun hi rfl)
    case neg =>
      have order (h : bk.pauseOrder = true) : gate = true := by simpa [h] using paused
      rw [boundary_pulse stop (by cases h : bk.pauseOrder; exacts [.inl rfl, .inr (order h)])]
      refine ⟨?_, fun _ => order⟩
      have drawn : bk.power = (true, true, sl.reservation) := by simp [power, isRunning, reservation, hi, hq, run]
      rcases nextPulse_goes bk.atRest sl with same | ⟨hi', f, hf, hq'⟩
      · refine ⟨by simpa [same, hq] using Fronted.of_queued queued, .inr ?_⟩
        rw [drawn]
        simp [same, power, isRunning, reservation, hi, hq, run]
      · have queue : (bk.atRest.nextPulse sl).queue = f sl :: behind := by
          rw [hq', atRest_queue, hq, updateTag_head apart]
        refine ⟨queue ▸ .of_queued queued, .inr ?_⟩
        rw [drawn]
        simp [power, isRunning, reservation, hi', hi, queue, hf sl]

omit apart in
/-- The RECORDING head ends, and what stands behind it is QUEUED. -/
theorem endRecording_still (hi : bk.internal = none) (recording : sl.state = .recording) (f : RecordFlags) :
    (bk.endRecording f).bank.Still := by
  unfold endRecording
  simp only [hq, recording, if_true]
  exact .of_queued hi queued

omit apart in
/-- A RECORDING head's hand-off ends it, or leaves it behind an internal operation that has not begun. -/
theorem handOff_still (hi : bk.internal = none) (recording : sl.state = .recording) (failed : Slot) :
    (bk.handOff failed).bank.Still := by
  have front : Fronted bk.queue := hq ▸ .of_queued queued
  unfold handOff
  dsimp only
  (repeat' split)
  · exact endRecording_still hq queued hi recording _
  · exact endRecording_still (by exact hq) queued (by exact hi) recording _
  · exact .of_unbegun rfl front
  · exact .of_unbegun rfl front

theorem failHead_still (hi : bk.internal = none) (failure : Failure) : (bk.failHead sl failure).bank.Still := by
  have kept : (bk.atRest.failStores sl).internal = none := by
    unfold failStores
    split <;> exact hi
  rw [failHead_eq hq apart]
  exact handOff_still (sl := sl.failed failure) (by rfl) queued (by exact kept) rfl sl

end Head

/-! ### The ends of host steps (R38, R56 to R65, R72) -/

theorem blankChecked_ends (sound : bk.Sound) (hs : bk.step = some (.sense .blankCheck)) {v : Turn}
    (h : bk.blankChecked gate = some v) : bk.Ends gate v.bank := by
  unfold blankChecked at h
  split at h
  · cases h
  · rename_i sl behind hq
    obtain ⟨hi, run⟩ := sound.head_of_step hs (.inl rfl) hq
    have queued := sound.queued_behind hq (by simp [run])
    split at h <;> try cases h
    dsimp only at h
    split at h <;> cases h
    · exact .of_same (x := { bk with senseLatch := none }) rfl rfl rfl
        (boundary_ends (by exact hq) (sound.apart hq) queued (by exact hi) run gate)
    · exact Still.ends (ended_still hq (sound.apart hq) queued hi rfl)

theorem coarseVerify_ends (sound : bk.Sound) (hs : bk.step = some (.verify .coarse)) {passed : Bool} {v : Turn}
    (h : bk.coarseVerify passed gate = some v) : bk.Ends gate v.bank := by
  unfold coarseVerify at h
  split at h <;> try cases h
  rename_i sl behind p hq hp
  obtain ⟨hi, run⟩ := sound.head_of_step hs (.inr (.inl rfl)) hq
  have queued := sound.queued_behind hq (by simp [run])
  have apart := sound.apart hq
  split at h <;> try cases h
  split at h
  · split at h <;> cases h
    · exact Still.ends (ended_still hq apart queued hi rfl)
    · exact .of_same (x := (bk.passDone sl p).nextPass _) rfl rfl rfl
        (boundary_ends (by exact hq) apart queued (by exact hi) run gate)
  · split at h <;> cases h
    · exact (failHead_still hq apart queued hi _).ends
    · exact boundary_ends hq apart queued hi run gate

theorem fineVerify_ends (sound : bk.Sound) (hs : bk.step = some (.verify .fine)) {passed : Bool} {v : Turn}
    (h : bk.fineVerify passed gate = some v) : bk.Ends gate v.bank := by
  unfold fineVerify at h
  split at h <;> try cases h
  rename_i sl behind p hq hp
  obtain ⟨hi, run⟩ := sound.head_of_step hs (.inr (.inr (.inl rfl))) hq
  have queued := sound.queued_behind hq (by simp [run])
  have apart := sound.apart hq
  have fails : bk.Ends gate (bk.failPass sl p).bank := (failHead_still hq apart queued hi _).ends
  have goesOn : bk.Ends gate (bk.boundary sl gate).bank := boundary_ends hq apart queued hi run gate
  have closes : bk.Ends gate ((bk.fineDone sl p).blockClosed sl).bank :=
    Still.ends (ended_still hq apart queued hi rfl)
  split at h <;> try cases h
  · split at h
    · dsimp only at h
      (repeat' split at h) <;> cases h
      · exact Still.ends (ended_still hq apart queued hi rfl)
      · exact .of_same (x := (bk.fineDone sl p).nextPass _) rfl rfl rfl
          (boundary_ends (by exact hq) apart queued (by exact hi) run gate)
      · exact closes
    · split at h <;> cases h
      · exact fails
      · exact goesOn
  · (repeat' split at h) <;> cases h
    · exact closes
    · exact fails
    · exact goesOn

theorem eraseVerify_ends (sound : bk.Sound) (hs : bk.step = some (.verify .erase)) {passed : Bool} {v : Turn}
    (h : bk.eraseVerify passed gate = some v) : bk.Ends gate v.bank := by
  unfold eraseVerify at h
  split at h
  · cases h
  · rename_i sl behind hq
    obtain ⟨hi, run⟩ := sound.head_of_step hs (.inr (.inr (.inr rfl))) hq
    have queued := sound.queued_behind hq (by simp [run])
    have apart := sound.apart hq
    split at h <;> try cases h
    (repeat' split at h) <;> cases h
    · exact Still.ends (ended_still hq apart queued hi rfl)
    · exact (failHead_still hq apart queued hi _).ends
    · let suspended : Slot := { sl with state := .suspended, suspensions := sl.suspensions + 1 }
      refine Still.ends (Still.of_suspended (sl := suspended) hi ?_ rfl queued)
      exact (congrArg (updateTag sl.tag _) hq).trans (updateTag_head apart _)
    · exact boundary_ends hq apart queued hi run gate

/-- The READ whose sense ends is the head, or the one READ that overtakes a SUSPENDED head. -/
theorem readSensed_ends (sound : bk.Sound) (hs : bk.step = some (.sense .read)) {cells : Option Page} {v : Turn}
    (h : bk.readSensed cells = some v) : bk.Ends gate v.bank := by
  obtain ⟨hi, sl, behind, hq, front⟩ := sound.host_of_step hs (.inl rfl)
  have apart := sound.apart hq
  unfold readSensed at h
  split at h
  · cases h
  · rename_i r hr
    have mem : r ∈ sl :: behind := hq ▸ mem_of_runningRead hr
    have running : r.state = .running := by
      have found := List.find?_some hr
      simp only [Bool.and_eq_true, beq_iff_eq] at found
      exact found.2
    split at h <;> try cases h
    rcases front with head | ⟨-, suspended, y, ho, -⟩
    case inl =>
      have queued := sound.queued_behind hq (by simp [head])
      obtain rfl : r = sl := by
        rcases List.mem_cons.1 mem with same | behind
        · exact same
        · exact absurd (queued r behind) (by simp [running])
      dsimp only at h
      (repeat' split at h) <;> cases h
      · exact Still.ends (ended_still hq apart queued hi rfl)
      · exact Still.ends (ended_still hq apart queued hi rfl)
      · exact Still.ends (updateHead_still hq apart queued (f := fun x => { x with state := .outputWait }) nofun nofun hi rfl)
    case inr =>
      have only := (hq ▸ sound.front : Fronted (sl :: behind)).queued_or_taken ho
      have hb : r ∈ behind := (List.mem_cons.1 mem).resolve_left fun same => by simp [← same, running] at suspended
      obtain rfl : r = y := (only r hb).resolve_left (by simp [running])
      have free : bk.outputFree = true := by
        have latch := sound.latch
        simp only [latchFits, Bool.and_eq_true, Bool.or_eq_true, List.all_eq_true, decide_eq_true_eq] at latch
        exact latch.1.resolve_right fun none => none sl (hq ▸ List.mem_cons_self) suspended
      have free' : bk.atRest.outputFree = true := free
      simp only [free', if_true] at h
      cases h
      refine Still.ends (Still.of_suspended hi ?_ suspended (queued_removeTag only))
      exact (congrArg (removeTag r.tag) hq).trans (removeTag_behind (hq ▸ sound.distinct) hb)

/-! ### The ends of map steps (R160, R163 to R166) -/

/-- An internal operation that goes on, or gives way to one of the same reservation. -/
theorem internal_ends {op op' : InternalOp} (front : Fronted bk.queue) (hi : bk.internal = some ⟨op, true⟩)
    (hi' : u.internal = some ⟨op', true⟩) (hq : u.queue = bk.queue) (same : op'.reservation = op.reservation) :
    bk.Ends gate u where
  front := hq ▸ front
  runs := .inr (by rw [power_of_internal hi, power_of_internal hi', same])
  order run := by simp [hostRunning, hi'] at run

theorem mapSensed_ends (sound : bk.Sound) (hs : bk.step = some (.sense .mapScan)) {cells : Option Page} {v : Turn}
    (h : bk.mapSensed cells = some v) : bk.Ends gate v.bank := by
  unfold mapSensed at h
  split at h <;> try cases h
  rename_i scan begun hi
  obtain rfl : begun = true := sound.begun_of_step hs hi
  dsimp only at h
  split at h <;> cases h
  · exact internal_ends sound.front hi rfl rfl rfl
  · rename_i after _
    have queued : ∀ x ∈ bk.queue, x.state = .queued :=
      ((queue_of_internal sound.shaped hi).resolve_right fun ⟨load, _⟩ => load scan rfl).2
    unfold settleMap
    split <;> exact Still.ends (.of_queued rfl queued)

section MapWrite

variable {op : InternalOp} (hq : bk.queue = sl :: behind) (recording : sl.state = .recording)
  (queued : ∀ x ∈ behind, x.state = .queued)

include hq recording queued

theorem degrade_still : bk.degrade.bank.Still :=
  endRecording_still (by exact hq) queued rfl recording _

theorem mapWritten_still (block : MapBlock) (w : Nat) : (bk.mapWritten block w).bank.Still :=
  endRecording_still (by exact hq) queued rfl recording _

theorem updateFailed_ends (hi : bk.internal = some ⟨op, true⟩) (ho : op.reservation = 3) :
    bk.Ends gate bk.updateFailed.bank := by
  have front : Fronted bk.queue := hq ▸ .of_queued queued
  unfold updateFailed
  dsimp only
  (repeat' split)
  · exact Still.ends (degrade_still (by exact hq) recording queued)
  · exact internal_ends front hi rfl rfl ho.symm
  · exact Still.ends (.of_unbegun rfl front)

theorem rewriteFailed_ends (hi : bk.internal = some ⟨op, true⟩) (ho : op.reservation = 6) (w : Nat) :
    bk.Ends gate (bk.rewriteFailed w).bank := by
  have front : Fronted bk.queue := hq ▸ .of_queued queued
  unfold rewriteFailed
  dsimp only
  split
  · exact Still.ends (degrade_still (by exact hq) recording queued)
  · exact internal_ends front hi rfl rfl ho.symm

end MapWrite

/-- A RECORDING operation heads the queue while its map page is written or its map block erased. -/
theorem Sound.recording (sound : bk.Sound) {i : Internal} (hi : bk.internal = some i) (write : ∀ scan, i.op ≠ .mapLoad scan) :
    ∃ sl behind, bk.queue = sl :: behind ∧ sl.state = .recording ∧ ∀ x ∈ behind, x.state = .queued :=
  ((queue_of_internal sound.shaped hi).resolve_left fun ⟨⟨scan, load⟩, _⟩ => write scan load).2

theorem mapPageVerify_ends (sound : bk.Sound) (hs : bk.step = some (.verify .mapPage)) {passed : Bool} {v : Turn}
    (h : bk.mapPageVerify passed = some v) : bk.Ends gate v.bank := by
  unfold mapPageVerify at h
  dsimp only at h
  split at h <;> try cases h
  all_goals
    rename_i begun hi
    obtain rfl : begun = true := sound.begun_of_step hs hi
    obtain ⟨sl, behind, hq, recording, queued⟩ := sound.recording hi nofun
    (repeat' split at h) <;> cases h
  · exact Still.ends (mapWritten_still (by exact hq) recording queued _ _)
  · exact .of_same (x := { bk with step := none }) rfl rfl rfl (updateFailed_ends (by exact hq) recording queued (by exact hi) rfl)
  · exact internal_ends sound.front hi rfl rfl rfl
  · exact Still.ends (mapWritten_still (by exact hq) recording queued _ _)
  · exact .of_same (x := { bk with step := none }) rfl rfl rfl (rewriteFailed_ends (by exact hq) recording queued (by exact hi) rfl _)
  · exact internal_ends sound.front hi rfl rfl rfl

theorem mapEraseVerify_ends (sound : bk.Sound) (hs : bk.step = some (.verify .mapErase)) {passed : Bool} {v : Turn}
    (h : bk.mapEraseVerify passed = some v) : bk.Ends gate v.bank := by
  unfold mapEraseVerify at h
  dsimp only at h
  split at h <;> try cases h
  rename_i pulses begun hi
  obtain rfl : begun = true := sound.begun_of_step hs hi
  obtain ⟨sl, behind, hq, recording, queued⟩ := sound.recording hi nofun
  (repeat' split at h) <;> cases h
  · exact internal_ends sound.front hi rfl rfl rfl
  · exact Still.ends (degrade_still (by exact hq) recording queued)
  · exact internal_ends sound.front hi rfl rfl rfl

/-! ### Operations stopped from outside, and posts (R21, R31, R33, R98) -/

/-- A slot that is posted stands QUEUED behind the front. -/
theorem append_eases (front : Fronted bk.queue) {x : Slot} (hx : x.state = .queued) :
    bk.Eases { bk with queue := bk.queue ++ [x] } where
  front := front.append hx
  runs := by
    cases hi : bk.internal with
    | some i => exact .inr (power_of_same_internal (by simp [hi]) hi.symm)
    | none =>
      cases hq : bk.queue with
      | nil => exact .inl (isRunning_of_queued rfl (by simp [hx]))
      | cons sl behind =>
        refine .inr (power_congr hi rfl hq rfl rfl rfl ?_)
        exact congrArg (Option.map _) (overtaker_append_queued hx)

/-- A slot behind the front that leaves takes nothing that runs but itself. -/
theorem removed_behind_eases (front : Fronted bk.queue) (distinct : (bk.queue.map Slot.tag).Nodup)
    (hq : bk.queue = sl :: behind) {y : Slot} (hy : y ∈ behind)
    (hi' : u.internal = bk.internal) (hq' : u.queue = removeTag y.tag bk.queue) : bk.Eases u := by
  rw [hq] at front distinct
  rw [hq, removeTag_behind distinct hy] at hq'
  have tags : (behind.map Slot.tag).Nodup := (List.nodup_cons.1 distinct).2
  have other {r : Slot} (ho : overtaker behind = some r) (apart : r ≠ y) :
      overtaker (removeTag y.tag behind) = some r :=
    overtaker_removeTag ho fun same => apart (eq_of_tag_eq tags (mem_of_overtaker ho) hy same)
  refine ⟨hq' ▸ fun x hx => ?_, ?_⟩
  · obtain ⟨hx, apart⟩ := mem_removeTag.1 hx
    exact (front x hx).imp_right fun ⟨hs, ho⟩ => ⟨hs, other ho fun same => apart (same ▸ rfl)⟩
  · cases hi : bk.internal with
    | some i => exact .inr (power_of_same_internal (by simp [hi]) hi')
    | none =>
      by_cases taken : overtaker behind = some y
      · by_cases hs : sl.state = .suspended
        · exact .inl (isRunning_suspended_head (hi'.trans hi) hq' hs
            (overtaker_of_queued (queued_removeTag (front.queued_or_taken taken))))
        · exact absurd (overtaker_state taken) (by simp [front.queued_behind hs y hy])
      · refine .inr (power_congr hi (hi'.trans hi) hq hq' rfl rfl ?_)
        cases ho : overtaker behind with
        | some r => rw [other ho fun same => taken (same ▸ ho)]
        | none => rw [overtaker_of_queued fun x hx => front.queued_untaken ho x (mem_removeTag.1 hx).1]

/-- A head that is not SUSPENDED leaves QUEUED operations. -/
theorem removed_head_eases (front : Fronted bk.queue) (distinct : (bk.queue.map Slot.tag).Nodup)
    (hq : bk.queue = sl :: behind) (hs : sl.state ≠ .suspended) (hi' : u.internal = bk.internal)
    (hq' : u.queue = removeTag sl.tag bk.queue) : bk.Eases u := by
  rw [hq] at front distinct
  rw [hq, removeTag_head distinct] at hq'
  have queued := front.queued_behind hs
  refine ⟨hq' ▸ .of_all_queued queued, ?_⟩
  cases hi : bk.internal with
  | some i => exact .inr (power_of_same_internal (by simp [hi]) hi')
  | none => exact .inl (isRunning_of_queued (hi'.trans hi) (hq' ▸ queued))

/-- A SUSPENDED head that leaves makes the READ that overtakes it the head. -/
theorem promoted_eases (front : Fronted bk.queue) (distinct : (bk.queue.map Slot.tag).Nodup)
    (hq : bk.queue = sl :: behind) (hs : sl.state = .suspended) (hi' : u.internal = bk.internal)
    (hq' : u.queue = promoteOvertaker (removeTag sl.tag bk.queue)) : bk.Eases u := by
  rw [hq] at front distinct
  rw [hq, removeTag_head distinct, promoteOvertaker] at hq'
  have internal {i : Internal} (hi : bk.internal = some i) : u.power = bk.power :=
    power_of_same_internal (by simp [hi]) hi'
  cases ho : overtaker behind with
  | none =>
    simp only [ho] at hq'
    have queued := front.queued_untaken ho
    refine ⟨hq' ▸ .of_all_queued queued, ?_⟩
    cases hi : bk.internal with
    | some i => exact .inr (internal hi)
    | none => exact .inl (isRunning_of_queued (hi'.trans hi) (hq' ▸ queued))
  | some r =>
    simp only [ho] at hq'
    have queued := queued_removeTag (front.queued_or_taken ho)
    refine ⟨hq' ▸ .of_queued queued, ?_⟩
    cases hi : bk.internal with
    | some i => exact .inr (internal hi)
    | none =>
      rcases overtaker_state ho with waits | runs
      · exact .inl (isRunning_of_still (hi'.trans hi) hq' (by simp [waits]) (by simp [waits]))
      · refine .inr ?_
        simp [power, isRunning, reservation, hi, hi'.trans hi, hq, hq', hs, ho, runs]

theorem stopSlot_queue (h : sl.Stoppable) (hs : sl.state ≠ .suspended) {o : OpOutcome} :
    (bk.stopSlot sl o).bank.queue = removeTag sl.tag bk.queue := by
  obtain ⟨running, recording, done⟩ := h
  cases st : sl.state with
  | queued => rw [stopSlot_bare (.inl st)]
  | waiting => rw [stopSlot_bare (.inr (.inl st))]
  | held =>
    by_cases written : sl.hasWritten
    · rw [stopSlot_written st written]
    · rw [stopSlot_bare (.inr (.inr ⟨st, written⟩))]
  | outputWait => rw [stopSlot_outputWait st]
  | suspended => exact absurd st hs
  | running => exact absurd st running
  | recording => exact absurd st recording
  | done => exact absurd st done

/-- An operation that is stopped while no step of its own is under way leaves what runs as it is. -/
theorem stopSlot_eases (front : Fronted bk.queue) (distinct : (bk.queue.map Slot.tag).Nodup) {y : Slot} (hy : y ∈ bk.queue)
    (tag : y.tag = sl.tag) (state : y.state = sl.state) (h : sl.Stoppable) (o : OpOutcome) :
    bk.Eases (bk.stopSlot sl o).bank := by
  obtain ⟨-, -, hi', hq'⟩ := stopSlot_spec (bk := bk) (o := o) h
  obtain ⟨z, behind, hq⟩ := List.exists_cons_of_ne_nil (List.ne_nil_of_mem hy)
  by_cases hs : sl.state = .suspended
  · have queue : (bk.stopSlot sl o).bank.queue = promoteOvertaker (removeTag y.tag bk.queue) := by
      rw [stopSlot_suspended hs, tag]
    rcases List.mem_cons.1 (hq ▸ hy) with rfl | hb
    · exact promoted_eases front distinct hq (state.trans hs) hi' queue
    · rcases (hq ▸ front : Fronted (z :: behind)) y hb with queued | ⟨-, ho⟩
      · exact absurd (queued.symm.trans (state.trans hs)) nofun
      · exact absurd (overtaker_state ho) (by simp [state, hs])
  · have queue : (bk.stopSlot sl o).bank.queue = removeTag y.tag bk.queue := by
      rw [tag, stopSlot_queue h hs]
    rcases List.mem_cons.1 (hq ▸ hy) with rfl | hb
    · exact removed_head_eases front distinct hq (state ▸ hs) hi' queue
    · exact removed_behind_eases front distinct hq hb hi' queue

end Bank

end Sys2Proof.Machine

/-! # How the result of a command comes about

Every command leaves what the banks draw as it was, or changes the controller or the port alone, or settles a state to which it has
brought a change of its own: one that eases the banks. So a property of all states is kept by every command where it is kept in
these few ways. -/

namespace Sys2Proof.Machine

/-- Two states alike in their banks, controller and port, and in whether they are held in reset. -/
structure State.Like (t u : State) : Prop where
  bank : ∀ b, t.bank b = u.bank b
  ctl : t.ctl = u.ctl
  port : t.port = u.port
  reset : t.heldInReset = u.heldInReset

/-- A change of the controller and of the port with which nothing settles. -/
inductive State.Tended (s : State) : Controller → Port → Prop where
  | read : s.Tended { s.ctl with diverged := false } s.port
  | joined (h : s.ctl.station.mayJoin = true) : s.Tended s.joinBus.ctl s.joinBus.port
  | gone (h : s.ctl.station = .inService) (idle : s.idle = true) (empty : s.ctl.own.active = false) :
      s.Tended s.enterConfigured.ctl s.enterConfigured.port
  | leaving (h : s.ctl.station = .inService) (idle : s.idle = true) : s.Tended s.startLeaving.ctl s.port
  | renewing (h : s.ctl.leaseRuns = true) :
      s.Tended { s.ctl.renewalAt s.ctl.renewTicks with
        transmit := { s.ctl.transmit with renew := s.ctl.transmit.renew || !s.ctl.transmit.release } } s.port
  | silent (k : StationId) : s.Tended (s.ctl.ageOut k) s.port
  | older : s.Tended s.ctl.tick s.port
  | attempting : s.Tended s.startAttempt.ctl s.startAttempt.port

/-- A change of the controller that is settled in the same change. -/
inductive State.Turned (s : State) : Controller → Prop where
  | same : s.Turned s.ctl
  | configured {g : Settings} (h : s.ctl.station = .unconfigured) (budget : 6 ≤ g.budget ∧ g.budget ≤ 240)
      (lease : 1 ≤ g.lease ∧ g.lease ≤ 16) (wait : g.waitLimit ≤ 255) : s.Turned (s.ctl.configured g)
  | heldOff (h : s.ctl.holdOff.isSome = true) : s.Turned s.holdOffOver.ctl
  | lapsed (h : s.ctl.leaseRuns = true) : s.Turned { s.ctl.renewalAt s.ctl.leaseTicks with lapsed := true }
  | inService (h : s.ctl.station = .learning) :
      s.Turned ({ s.ctl with
        station := .inService, window := none, transmit := { s.ctl.transmit with hello := false } } : Controller).tendEvicts

/-- The operation table and both banks are sound. -/
structure State.Orderly (s : State) : Prop where
  table : s.Table
  bank : ∀ b, (s.bank b).Sound

theorem State.Orderly.of_coherent {s : State} (h : s.coherent = true) (live : s.heldInReset = false) : s.Orderly := by
  have table := State.coherent_table h
  simp only [State.coherent, live, Bool.and_eq_true, Bool.false_or] at h
  obtain ⟨-, sound0, sound1⟩ := h
  refine ⟨table, fun b => .of_coherent (table.queue_distinct b) ?_⟩
  cases b
  exacts [sound0, sound1]

/-- How the result of a command comes about. -/
inductive State.Course (s : State) : State → Prop where
  /-- what the banks draw, the controller and the port stand as they were -/
  | kept {t : State} (ctl : t.ctl = s.ctl) (port : t.port = s.port) (reset : t.heldInReset = s.heldInReset)
      (banks : ∀ b, (s.bank b).Kept (t.bank b)) : s.Course t
  /-- the controller or the port changes, and nothing settles -/
  | tended {t : State} (live : s.heldInReset = false) (change : s.Tended t.ctl t.port) (reset : t.heldInReset = s.heldInReset)
      (banks : ∀ b, (s.bank b).Kept (t.bank b)) : s.Course t
  /-- a change that eases the banks settles -/
  | settled {x t : State} (live : s.heldInReset = false) (change : s.Turned x.ctl) (port : x.port = s.port)
      (reset : x.heldInReset = s.heldInReset) (table : s.Table → x.Table) (eases : s.Orderly → ∀ b, (s.bank b).Eases (x.bank b))
      (like : t.Like x.settle) : s.Course t
  /-- a reset begins -/
  | cut {t : State} (ctl : t.ctl = s.ctl) (port : t.port = s.port.abandon) (reset : t.heldInReset = true)
      (banks : ∀ b, (s.bank b).Kept (t.bank b)) : s.Course t
  /-- a reset ends -/
  | fresh (straps : StationId) (nonce : Nonce) (hselLow : Bool) : s.Course (s.afterReset straps nonce hselLow)

/-- The rows that BDAT is read at: a frame row bit by bit, or bits of one level. -/
inductive State.Reads (s : State) : Instr → State → Prop where
  | frame (n : Nat) (bits : List Bool) : s.Reads (.frameEnd n bits) (s.readBits (List.replicate n true ++ bits))
  | stuck (n : Nat) : s.Reads .busStuckSet (s.readBits (List.replicate n false))
  | clear (n : Nat) : s.Reads .busStuckClear (s.readBits (List.replicate n true))

/-- The end of a step of a bank: the verify of a pulse begins, or the bank's own change settles. -/
inductive State.StepEnds (s : State) (b : BankId) : State → Prop where
  | pulse (use : PulseUse) : s.StepEnds b (s.setBank b ((s.bank b).pulseEnded use))
  | concludes {v : Turn} (live : s.heldInReset = false)
      (accounts : ∀ tags, (s.bank b).Accounts b tags → v.Accounts b tags)
      (ends : (s.bank b).Sound → (s.bank b).Ends (s.gateAdmits b) v.bank) : s.StepEnds b (s.conclude b v)

namespace State

variable {s t u x : State} {b : BankId}

theorem Like.refl (s : State) : s.Like s := ⟨fun _ => rfl, rfl, rfl, rfl⟩

theorem Like.answered {r : Response} (h : t.Like u) : (t.answer r).Like u :=
  ⟨fun b => (t.answer_bank r b).trans (h.bank b), h.ctl, h.port, h.reset⟩

theorem heldInReset_of_holds {source : ResetSource} (h : s.inReset.holds source = true) : s.heldInReset = true := by
  cases source <;> simp_all [heldInReset, ResetHold.holds]

theorem heldInReset_of_ne {h : ResetHold} (other : h ≠ ResetHold.none) :
    ({ s with inReset := h } : State).heldInReset = true := by
  obtain ⟨p, r, c⟩ := h
  cases p <;> cases r <;> cases c <;> first | rfl | exact absurd rfl other

theorem settle_heldInReset (s : State) : s.settle.heldInReset = s.heldInReset := by
  rw [State.heldInReset, settle_inReset]
  rfl

/-! ### The ends of steps -/

theorem StepEnds.of_stepEnd {ended : Step} {finish : Bank → Bool → Option Turn} (ht : s.stepEnd b ended finish = .next t)
    (accounts : ∀ {tags v}, (s.bank b).Accounts b tags → finish (s.bank b) (s.gateAdmits b) = some v → v.Accounts b tags)
    (ends : ∀ {v}, (s.bank b).Sound → (s.bank b).step = some ended → finish (s.bank b) (s.gateAdmits b) = some v →
      (s.bank b).Ends (s.gateAdmits b) v.bank) : s.StepEnds b t := by
  obtain ⟨live, hs, v, hv, rfl⟩ := State.stepEnd_next ht
  exact .concludes live (fun _ h => accounts h hv) fun sound => ends sound hs hv

/-- What the end of a step does, whichever step it is (R3, R96). -/
theorem StepEnds.of_exec {c : Instr} (hc : endsStepOf b c = true) (ht : exec c s = .next t) : s.StepEnds b t := by
  unfold endsStepOf at hc
  split at hc
  on_goal 10 => cases hc
  all_goals
    obtain rfl := of_decide_eq_true hc
    dsimp only [exec, execReadSenseEnd, execBlankCheckEnd, execMapScanSenseEnd, execCoarseVerifyEnd, execFineVerifyEnd,
      execEraseVerifyEnd, execMapEraseVerifyEnd, execMapPageVerifyEnd] at ht
  · unfold execPulseEnd at ht
    split at ht
    · cases ht
    · split at ht <;> cases ht
      exact .pulse _
  · exact .of_stepEnd ht (fun h hv => h.readSensed hv) fun sound hs hv => Bank.readSensed_ends sound hs hv
  · exact .of_stepEnd ht (fun h hv => h.blankChecked hv) fun sound hs hv => Bank.blankChecked_ends sound hs hv
  · exact .of_stepEnd ht (fun h hv => h.mapSensed hv) fun sound hs hv => Bank.mapSensed_ends sound hs hv
  · exact .of_stepEnd ht (fun h hv => h.coarseVerify hv) fun sound hs hv => Bank.coarseVerify_ends sound hs hv
  · exact .of_stepEnd ht (fun h hv => h.fineVerify hv) fun sound hs hv => Bank.fineVerify_ends sound hs hv
  · exact .of_stepEnd ht (fun h hv => h.eraseVerify hv) fun sound hs hv => Bank.eraseVerify_ends sound hs hv
  · exact .of_stepEnd ht (fun h hv => h.mapEraseVerify hv) fun sound hs hv => Bank.mapEraseVerify_ends sound hs hv
  · exact .of_stepEnd ht (fun h hv => h.mapPageVerify hv) fun sound hs hv => Bank.mapPageVerify_ends sound hs hv

/-! ### Changes of one bank -/

theorem kept_setBank {bk : Bank} (h : (s.bank b).Kept bk) (k : BankId) : (s.bank k).Kept ((s.setBank b bk).bank k) := by
  by_cases same : k = b
  · subst same
    rwa [setBank_bank]
  · rw [setBank_bank_ne s same]
    exact .refl _

theorem eases_withTurn (ok : s.Orderly) {v : Turn} (h : (s.bank b).Eases v.bank) (k : BankId) :
    (s.bank k).Eases ((s.withTurn b v).bank k) := by
  by_cases same : k = b
  · subst same
    rwa [withTurn_bank]
  · rw [withTurn_bank_ne s same]
    exact (Bank.Kept.refl _).eases (ok.bank k).front

theorem noteMap_bank (s : State) (b : BankId) (before : MapState) (k : BankId) : (s.noteMap b before).bank k = s.bank k := by
  unfold noteMap
  dsimp only
  split
  · cases k <;> rfl
  · rfl

theorem noteMap_like (s : State) (b : BankId) (before : MapState) : (s.noteMap b before).Like s := by
  refine ⟨noteMap_bank s b before, ?_, ?_, ?_⟩
  all_goals
    unfold noteMap
    dsimp only
    split <;> rfl

end State

namespace State.Course

variable {s t x : State} {b : BankId} {params : List Byte}

theorem unchanged (bank0 : t.bank0 = s.bank0) (bank1 : t.bank1 = s.bank1) (ctl : t.ctl = s.ctl) (port : t.port = s.port)
    (reset : t.heldInReset = s.heldInReset) : s.Course t := by
  refine .kept ctl port reset fun b => ?_
  cases b
  exacts [.of_same (congrArg _ bank0) (congrArg _ bank0) (congrArg _ bank0),
    .of_same (congrArg _ bank1) (congrArg _ bank1) (congrArg _ bank1)]

theorem answer (s : State) (r : Response) : s.Course (s.answer r) := unchanged rfl rfl rfl rfl rfl

theorem setBank {bk : Bank} (h : (s.bank b).Kept bk) : s.Course (s.setBank b bk) :=
  .kept (s.setBank_ctl b bk) (s.setBank_port b bk) (s.setBank_heldInReset b bk) (State.kept_setBank h)

theorem setBankAnswered {bk : Bank} (h : (s.bank b).Kept bk) (r : Response) : s.Course ((s.setBank b bk).answer r) :=
  .kept (s.setBank_ctl b bk) (s.setBank_port b bk) (s.setBank_heldInReset b bk) fun k => by
    rw [answer_bank]
    exact State.kept_setBank h k

/-- A bank's own change that settles. -/
theorem bankSettles {v : Turn} (live : s.heldInReset = false) (table : s.Table → x.Table) (like : x.Like (s.withTurn b v))
    (eases : s.Orderly → (s.bank b).Eases v.bank) (ht : t.Like x.settle) : s.Course t :=
  .settled live (by rw [like.ctl, withTurn_ctl]; exact .same) (like.port.trans (s.withTurn_port b v))
    (like.reset.trans (by rw [State.heldInReset, withTurn_inReset]; rfl)) table
    (fun ok k => like.bank k ▸ State.eases_withTurn ok (eases ok) k) ht

theorem transaction {act : State → State} (h : s.heldInReset = false → s.Course (act s)) (ht : s.transaction act = .next t) :
    s.Course t := by
  rcases s.transaction_cases act with ⟨ready, hc⟩ | ⟨-, hc⟩ | ⟨-, -, -, hc⟩ <;> cases hc.symm.trans ht
  · exact h (State.ready_iff.1 ready).1
  · exact unchanged rfl rfl rfl rfl rfl
  · exact unchanged rfl rfl rfl rfl rfl

theorem stepEnds (h : s.StepEnds b t) : s.Course t := by
  cases h with
  | pulse use => exact setBank (.of_same rfl rfl rfl)
  | @concludes v live accounts ends =>
    have table : s.KeepsTable ((s.withTurn b v).noteMap b (s.bank b).mapState) :=
      (State.KeepsTable.withTurn accounts).trans (State.KeepsTable.noteMap _ _ _)
    exact bankSettles (b := b) (v := v) live table.table (State.noteMap_like _ b _)
      (fun ok => (ends (ok.bank b)).toEases) (.refl _)

/-! ### The host commands -/

theorem configure (ht : execConfigure params s = .next t) : s.Course t := by
  refine transaction (fun live => ?_) ht
  split
  · exact answer s _
  · rename_i p _
    split
    · exact answer s _
    · rename_i station
      split
      · exact answer s _
      · rename_i g hg
        have range : (6 ≤ g.budget ∧ g.budget ≤ 240) ∧ (1 ≤ g.lease ∧ g.lease ≤ 16) ∧ g.waitLimit ≤ 255 := by
          unfold ConfigureParams.settings at hg
          split at hg
          · cases hg
          · split at hg <;> cases hg
            rename_i fits
            exact ⟨⟨fits.1, fits.2.1⟩, fits.2.2, Nat.le_of_lt_succ p.waitLimit.isLt⟩
        have kept (bk : Bank) : bk.Kept bk.restartWaits :=
          ⟨rfl, rfl, Slot.restartWait, ⟨SlotChange.restartWait.tag, fun x => by unfold Slot.restartWait; split <;> rfl,
            fun x => by unfold Slot.restartWait; split <;> rfl⟩, rfl⟩
        exact .settled (x := { s with
            ctl := s.ctl.configured g, bank0 := s.bank0.restartWaits, bank1 := s.bank1.restartWaits }) live (.configured (not_not.1 station) range.1 range.2.1 range.2.2) rfl rfl
          (State.KeepsTable.restartWaits s _).table
          (fun ok b => by cases b <;> exact (kept _).eases (ok.bank _).front) (State.Like.refl _).answered

theorem join (ht : execJoin params s = .next t) : s.Course t := by
  refine transaction (fun live => ?_) ht
  (repeat' split)
  · exact answer s _
  · rename_i may
    exact .tended live (.joined may) rfl fun b => by cases b <;> exact .refl _
  · exact answer s _

theorem leave (ht : execLeave params s = .next t) : s.Course t := by
  refine transaction (fun live => ?_) ht
  split
  · exact answer s _
  · split
    · rename_i may
      split
      · exact .tended live (.leaving may.1 may.2) rfl fun b => by cases b <;> exact .refl _
      · rename_i empty
        exact .tended live (.gone may.1 may.2 (by simpa using empty)) rfl fun b => by cases b <;> exact .refl _
    · exact answer s _

theorem post (live : s.heldInReset = false) (p : Option Post) : s.Course (s.post p) := by
  unfold State.post
  split
  · exact answer s _
  · split
    · exact answer s _
    · rename_i p _ b block op _
      split
      · exact answer s _
      · rename_i new
        split
        · exact answer s _
        · rename_i few
          split
          · exact answer s _
          · rename_i short
            rw [State.enqueue_eq]
            have table (hs : s.Table) : (s.withPosted b (Slot.posted p.tag op b block)).Table :=
              hs.withPosted (mt List.contains_iff_mem.2 new) (Nat.lt_of_not_le few) (Nat.lt_of_not_le short) nofun rfl
            have posted : (s.withPosted b (Slot.posted p.tag op b block)).Like (s.withTurn b (Turn.of
                { s.bank b with queue := (s.bank b).queue ++ [Slot.posted p.tag op b block] })) := by
              rw [State.withTurn_of]
              exact .refl _
            exact bankSettles live table posted (fun ok => Bank.append_eases (ok.bank b).front rfl)
              (State.Like.refl _).answered

theorem postTransaction {p : Option Post} (ht : s.transaction (fun s => s.post p) = .next t) : s.Course t :=
  transaction (fun live => post live p) ht

/-- An operation that is stopped from outside. -/
theorem stopNow (live : s.heldInReset = false) {sl y : Slot} (hy : y ∈ (s.bank b).queue) (tag : y.tag = sl.tag)
    (state : y.state = sl.state) (h : sl.Stoppable) (o : OpOutcome) (ht : t.Like (s.stopNow b sl o)) : s.Course t := by
  have mem : sl.tag ∈ (s.bank b).queue.map Slot.tag := tag ▸ List.mem_map_of_mem hy
  have table : s.KeepsTable (s.withTurn b ((s.bank b).stopSlot sl o)) := State.KeepsTable.withTurn fun _ h => h.stopSlot mem o
  exact bankSettles live table.table (.refl _)
    (fun ok => Bank.stopSlot_eases (ok.bank b).front (ok.bank b).distinct hy tag state h o) ht

theorem abort (ht : execAbort params s = .next t) : s.Course t := by
  refine transaction (fun live => ?_) ht
  split
  · exact answer s _
  · split
    · rename_i b sl found
      have hm := (State.slotOfTag_some found).1
      have stops (h : sl.Stoppable) : s.Course ((s.stopNow b sl .aborted).answer .accepted) :=
        stopNow live hm rfl rfl h _ (State.Like.refl _).answered
      have kept : (s.bank b).Kept { s.bank b with
          queue := updateTag sl.tag (fun sl => { sl with stopRequest := true }) (s.bank b).queue } :=
        ⟨rfl, rfl, _, SlotKept.ite (f := fun x => { x with stopRequest := true })
          ⟨fun _ => rfl, fun _ => rfl, fun _ => rfl⟩ (fun x => x.tag = sl.tag), rfl⟩
      unfold State.abortSlot
      split
      iterate 5
        rename_i hs
        exact stops ⟨by simp [hs], by simp [hs], by simp [hs]⟩
      · exact setBankAnswered kept _
      · exact answer s _
      · exact answer s _
    · split <;> exact answer s _

theorem loadStaging (ht : execLoadStaging params s = .next t) : s.Course t := by
  refine transaction (fun _ => ?_) ht
  (repeat' split)
  · exact answer s _
  · exact setBankAnswered (bk := (s.bank _).loadStaging ..) (.of_same rfl rfl rfl) _
  · exact answer s _
  · exact answer s _

theorem fetchOutput (ht : execFetchOutput params s = .next t) : s.Course t := by
  refine transaction (fun _ => ?_) ht
  (repeat' split) <;> exact unchanged rfl rfl rfl rfl rfl

theorem releaseOutput (ht : execReleaseOutput params s = .next t) : s.Course t := by
  refine transaction (fun live => ?_) ht
  (repeat' split)
  iterate 3 exact answer s _
  rename_i b _ _
  have table : s.KeepsTable (s.setBank b (s.bank b).freeOutput) := State.KeepsTable.setBank fun _ h => h
  have freed : (s.setBank b (s.bank b).freeOutput).Like (s.withTurn b (Turn.of (s.bank b).freeOutput)) := by
    rw [State.withTurn_of]
    exact .refl _
  exact bankSettles live table.table freed
    (fun ok => Bank.Kept.eases (.of_same rfl rfl rfl) (ok.bank b).front) (State.Like.refl _).answered

theorem takeCompletions (ht : execTakeCompletions params s = .next t) : s.Course t := by
  refine transaction (fun _ => ?_) ht
  (repeat' split) <;> exact unchanged rfl rfl rfl rfl rfl

theorem readStatus (ht : execReadStatus params s = .next t) : s.Course t := by
  refine transaction (fun live => ?_) ht
  split
  · exact answer s _
  · exact .tended live .read rfl fun b => by cases b <;> exact .refl _

theorem readBudgetTable (ht : execReadBudgetTable params s = .next t) : s.Course t := by
  refine transaction (fun _ => ?_) ht
  split <;> exact unchanged rfl rfl rfl rfl rfl

theorem readRetired (ht : execReadRetired params s = .next t) : s.Course t := by
  refine transaction (fun _ => ?_) ht
  (repeat' split) <;> exact unchanged rfl rfl rfl rfl rfl

theorem dieReset (ht : execDieReset params s = .next t) : s.Course t := by
  refine transaction (fun _ => ?_) ht
  split <;> exact unchanged rfl rfl rfl rfl rfl

theorem unknownCommand {code : Byte} (ht : execUnknownCommand code params s = .next t) : s.Course t := by
  unfold execUnknownCommand at ht
  split at ht
  · cases ht
  · exact transaction (fun _ => answer s _) ht

theorem transactionCut {clockedIn : List Byte} (ht : execTransactionCut clockedIn s = .next t) : s.Course t := by
  unfold execTransactionCut at ht
  split at ht
  · cases ht
  · exact transaction (fun _ => unchanged rfl rfl rfl rfl rfl) ht

/-! ### The die reset and the timers -/

theorem dieResetBegin {source : ResetSource} (ht : execDieResetBegin source s = .next t) : s.Course t := by
  unfold execDieResetBegin at ht
  split at ht <;> cases ht
  refine .cut rfl rfl (State.beginReset_heldInReset s source) fun b => ?_
  obtain ⟨cut, same⟩ := State.beginReset_bank s source b
  exact same ▸ .of_same rfl rfl rfl

theorem dieResetEnd {source : ResetSource} {straps : StationId} {nonce : Nonce} {hselLow : Bool}
    (ht : execDieResetEnd source straps nonce hselLow s = .next t) : s.Course t := by
  unfold execDieResetEnd at ht
  split at ht
  · rename_i held
    split at ht <;> cases ht
    · exact .fresh straps nonce hselLow
    · rename_i other
      refine unchanged rfl rfl rfl rfl ?_
      exact (State.heldInReset_of_ne other).trans (State.heldInReset_of_holds held).symm
  · cases ht

theorem waitLimitExpiry {tag : Byte} (ht : execWaitLimitExpiry tag s = .next t) : s.Course t := by
  obtain ⟨live, -, rfl⟩ := State.happening_next ht
  split
  · exact unchanged rfl rfl rfl rfl rfl
  · rename_i b sl found
    obtain ⟨found, waits⟩ := Option.filter_eq_some_iff.1 found
    have hm := (State.slotOfTag_some found).1
    have stoppable : sl.Stoppable := by
      simp only [Bool.or_eq_true, beq_iff_eq] at waits
      rcases waits with h | h <;> exact ⟨by simp [h], by simp [h], by simp [h]⟩
    exact stopNow (sl := { sl with waitTime := max sl.waitTime s.ctl.waitTicks }) (y := sl) live hm rfl rfl
      stoppable .budgetTimeout (.refl _)

/-- A change of the controller alone that settles. -/
theorem turns {c : Controller} (live : s.heldInReset = false) (h : s.Turned c) (ht : t.Like ({ s with ctl := c } : State).settle) :
    s.Course t :=
  .settled (x := { s with ctl := c }) live h rfl rfl (fun hs => hs.of_same (fun b => by cases b <;> rfl) rfl)
    (fun ok b => by cases b <;> exact (Bank.Kept.refl _).eases (ok.bank _).front) ht

theorem holdOffOver_eq (s : State) : s.holdOffOver = { s with ctl := s.holdOffOver.ctl } := by
  unfold State.holdOffOver
  dsimp only
  (repeat' split) <;> rfl

theorem releaseHoldOffExpiry (ht : execReleaseHoldOffExpiry s = .next t) : s.Course t := by
  obtain ⟨live, runs, rfl⟩ := State.happening_next ht
  exact turns live (.heldOff runs) (holdOffOver_eq s ▸ .refl _)

theorem renewalDue (ht : execRenewalDue s = .next t) : s.Course t := by
  obtain ⟨live, runs, rfl⟩ := State.happening_next ht
  exact .tended live (.renewing runs) rfl fun b => by cases b <;> exact .refl _

theorem selfLeaseLapse (ht : execSelfLeaseLapse s = .next t) : s.Course t := by
  obtain ⟨live, runs, rfl⟩ := State.happening_next ht
  exact turns live (.lapsed runs) (.refl _)

theorem lastHeardAgeExpiry {k : StationId} (ht : execLastHeardAgeExpiry k s = .next t) : s.Course t := by
  obtain ⟨live, -, rfl⟩ := State.happening_next ht
  exact .tended live (.silent k) rfl fun b => by cases b <;> exact .refl _

theorem learningWindowEnd (ht : execLearningWindowEnd s = .next t) : s.Course t := by
  obtain ⟨live, opens, rfl⟩ := State.happening_next ht
  simp only [Bool.and_eq_true, decide_eq_true_eq] at opens
  exact turns live (.inService opens.1) (.refl _)

theorem attemptStart (ht : execAttemptStart s = .next t) : s.Course t := by
  unfold execAttemptStart at ht
  split at ht <;> cases ht
  · exact unchanged rfl rfl rfl rfl rfl
  · rename_i live
    have banks : s.startAttempt.bank0 = s.bank0 ∧ s.startAttempt.bank1 = s.bank1 ∧
        s.startAttempt.inReset = s.inReset := by
      unfold State.startAttempt
      dsimp only
      (repeat' split) <;> exact ⟨rfl, rfl, rfl⟩
    obtain ⟨bank0, bank1, reset⟩ := banks
    refine .tended (by simpa using live) .attempting (by rw [State.heldInReset, reset]; rfl) fun b => ?_
    cases b
    · exact .of_same (congrArg _ bank0) (congrArg _ bank0) (congrArg _ bank0)
    · exact .of_same (congrArg _ bank1) (congrArg _ bank1) (congrArg _ bank1)

/-! ### Every command and every step -/

theorem readWhile_eq (s : State) (level : Bool) (going : Port → Bool) (most : Nat) :
    ∃ n, s.readWhile level going most = s.readBits (List.replicate n level) := by
  induction most generalizing s with
  | zero => exact ⟨0, rfl⟩
  | succ most ih =>
    unfold State.readWhile
    split
    · obtain ⟨n, h⟩ := ih (s.readBit level)
      exact ⟨n + 1, h⟩
    · exact ⟨0, rfl⟩

/-- Every command takes one of the courses or reads a row. -/
theorem of_exec {c : Instr} (ht : exec c s = .next t) : s.Course t ∨ s.Reads c t := by
  cases c with
  | configure params => exact .inl (configure ht)
  | join params => exact .inl (join ht)
  | leave params => exact .inl (leave ht)
  | postRead params => exact .inl (postTransaction (p := readPost params) ht)
  | postProgram params => exact .inl (postTransaction (p := programPost params) ht)
  | postFinish params => exact .inl (postTransaction (p := finishPost params) ht)
  | postErase params => exact .inl (postTransaction (p := erasePost params) ht)
  | abort params => exact .inl (abort ht)
  | loadStaging params => exact .inl (loadStaging ht)
  | fetchOutput params => exact .inl (fetchOutput ht)
  | releaseOutput params => exact .inl (releaseOutput ht)
  | takeCompletions params => exact .inl (takeCompletions ht)
  | readStatus params => exact .inl (readStatus ht)
  | readBudgetTable params => exact .inl (readBudgetTable ht)
  | readRetired params => exact .inl (readRetired ht)
  | dieReset params => exact .inl (dieReset ht)
  | unknownCommand code params => exact .inl (unknownCommand (params := params) ht)
  | transactionCut clockedIn => exact .inl (transactionCut ht)
  | dieResetBegin source => exact .inl (dieResetBegin ht)
  | dieResetEnd source straps nonce hselLow => exact .inl (dieResetEnd ht)
  | waitLimitExpiry tag => exact .inl (waitLimitExpiry ht)
  | releaseHoldOffExpiry => exact .inl (releaseHoldOffExpiry ht)
  | renewalDue => exact .inl (renewalDue ht)
  | selfLeaseLapse => exact .inl (selfLeaseLapse ht)
  | lastHeardAgeExpiry k => exact .inl (lastHeardAgeExpiry ht)
  | learningWindowEnd => exact .inl (learningWindowEnd ht)
  | busStuckSet =>
    cases ht
    obtain ⟨n, h⟩ := readWhile_eq s false (fun p => decide (p.dominantCount < stuckBits)) stuckBits
    exact .inr (h ▸ .stuck n)
  | busStuckClear =>
    cases ht
    obtain ⟨n, h⟩ := readWhile_eq s true (fun p => decide (p.recessiveCount < clearBits)) (frameBits + clearBits)
    exact .inr (h ▸ .clear n)
  | attemptStart => exact .inl (attemptStart ht)
  | frameEnd n bits =>
    cases ht
    rw [← State.readBits_append]
    exact .inr (.frame n bits)
  | pulseEnd b => exact .inl (stepEnds (.of_exec (b := b) (by simp [endsStepOf]) ht))
  | readSenseEnd b cells => exact .inl (stepEnds (.of_exec (b := b) (by simp [endsStepOf]) ht))
  | blankCheckEnd b => exact .inl (stepEnds (.of_exec (b := b) (by simp [endsStepOf]) ht))
  | mapScanSenseEnd b cells => exact .inl (stepEnds (.of_exec (b := b) (by simp [endsStepOf]) ht))
  | coarseVerifyEnd b passed => exact .inl (stepEnds (.of_exec (b := b) (by simp [endsStepOf]) ht))
  | fineVerifyEnd b passed => exact .inl (stepEnds (.of_exec (b := b) (by simp [endsStepOf]) ht))
  | eraseVerifyEnd b passed => exact .inl (stepEnds (.of_exec (b := b) (by simp [endsStepOf]) ht))
  | mapEraseVerifyEnd b passed => exact .inl (stepEnds (.of_exec (b := b) (by simp [endsStepOf]) ht))
  | mapPageVerifyEnd b passed => exact .inl (stepEnds (.of_exec (b := b) (by simp [endsStepOf]) ht))

theorem tick (s : State) : s.Course s.tick := by
  unfold State.tick
  split
  · exact unchanged rfl rfl rfl rfl rfl
  · rename_i live
    have kept (bk : Bank) : bk.Kept bk.tick :=
      ⟨rfl, rfl, Slot.tick, ⟨SlotChange.tick.tag, fun x => by unfold Slot.tick; split <;> rfl,
        fun x => by unfold Slot.tick; split <;> rfl⟩, rfl⟩
    exact .tended (by simpa using live) .older rfl fun b => by cases b <;> exact kept _

/-- A step is the course of its command, of a bit that waits, or of time that passes, from the state with the rest of its queue
or of its line. -/
theorem of_step (ht : step s = .next t) : ∃ pending wire, ({ s with pending := pending, wire := wire } : State).Course t ∨
    ∃ bits, t = ({ s with pending := pending, wire := wire } : State).readBits bits := by
  unfold Machine.step at ht
  split at ht
  · cases ht
    unfold State.idleStep
    split
    · exact ⟨s.pending, s.wire, .inl (tick s)⟩
    · rename_i b rest _
      exact ⟨s.pending, rest, .inr ⟨[b], rfl⟩⟩
  · rename_i c rest _
    refine ⟨rest, s.wire, (of_exec ht).imp_right fun reads => ?_⟩
    cases reads
    exacts [⟨_, rfl⟩, ⟨_, rfl⟩, ⟨_, rfl⟩]

end State.Course

end Sys2Proof.Machine

/-! # The port is quiet off the bus

The invariant is a property of the controller and one of the port, which meet in whether the station is on the bus. What settles
leaves the port and tends the transmit set to the kinds of its state. -/

namespace Sys2Proof.Machine

/-! ### The two halves of the invariant (R94, R123, R124, R137, R148) -/

/-- No station other than the own one is known (R102). -/
def Controller.Alone (c : Controller) : Prop := ∀ k, k ≠ c.id → { c.table.entry k with age := 0 } = clearedEntry

/-- The transmit set, LAPSED, the window and the hold-off fit the station state. -/
structure Controller.Quiet (c : Controller) : Prop where
  transmit : c.transmitFits = true
  lapsed : c.lapsed = true → c.station.keepsLease = true
  window : c.window ≠ none → c.station = .learning
  holdOff : c.holdOff ≠ none → c.station = .inService ∨ c.station = .solo
  alone : c.station = .solo ∨ c.station = .unconfigured → c.Alone

/-- The framing position fits what the port counts and sends. -/
def Port.Framed (onBus : Bool) (p : Port) : Prop :=
  match p.framing with
  | .outOfFrame => p.sending = none ∨ p.recessiveCount < idleBits
  | .inFrame heard =>
    onBus = true ∧ heard.length < frameBits ∧ (heard ≠ [] ∨ p.sending.isSome = true) ∧ p.recessiveCount = 0

/-- Off the bus the port sends nothing, its counts are within their limits, and BUS_STUCK stands as they give it. -/
structure Port.Quiet (onBus : Bool) (p : Port) : Prop where
  silent : onBus = false → p.sending = none
  rejectionRun : p.rejectionRun ≤ rejectionRunLimit
  rejectRun : p.rejectRun ≤ rejectRunLimit
  recessive : p.recessiveCount ≤ clearBits
  dominant : p.dominantCount ≤ stuckBits
  framed : p.Framed onBus
  unstuck : p.stuck = false → p.dominantCount < stuckBits
  stuck : p.stuck = true → p.recessiveCount < clearBits

theorem mem_stationIds (k : StationId) : k ∈ stationIds := List.mem_map.2 ⟨k.toNat, List.mem_range.2 k.isLt, by simp⟩

theorem mem_idsBut {k s : StationId} : k ∈ idsBut s ↔ k ≠ s := by
  simp [idsBut, mem_stationIds k]

theorem State.quiet_iff {s : State} : s.quiet = true ↔ s.ctl.Quiet ∧ s.port.Quiet s.ctl.station.onBus := by
  have framing : (match s.port.framing with
      | .outOfFrame => s.port.sending.isNone || decide (s.port.recessiveCount < idleBits)
      | .inFrame heard =>
        s.ctl.station.onBus && decide (heard.length < frameBits) && (!heard.isEmpty || s.port.sending.isSome) &&
          decide (s.port.recessiveCount = 0)) = true ↔ s.port.Framed s.ctl.station.onBus := by
    unfold Port.Framed
    cases s.port.framing <;> simp [and_assoc]
  have alone : (idsBut s.ctl.id).all (fun k => decide ({ s.ctl.table.entry k with age := 0 } = clearedEntry)) = true ↔
      s.ctl.Alone := by simp [Controller.Alone, mem_idsBut]
  constructor
  · intro h
    simp only [State.quiet, State.framed, Bool.and_eq_true, Bool.or_eq_true, alone] at h
    obtain ⟨⟨⟨⟨⟨⟨⟨⟨⟨⟨a1, a2⟩, a3⟩, a4⟩, a5⟩, a6⟩, a7⟩, a8⟩, a9⟩, a10⟩, ⟨a11, a12⟩, a13⟩ := h
    simp only [Bool.not_eq_true', decide_eq_true_eq, Option.isNone_iff_eq_none] at *
    exact ⟨⟨a1, fun h => a3.resolve_left (by simp [h]), a4.resolve_left, fun h => a5.elim (fun h' => h'.elim (absurd · h) .inl) .inr,
      fun h => a6.resolve_left fun h' => h.elim h'.1 h'.2⟩,
      ⟨fun h => a2.resolve_left (by simp [h]), a7, a8, a9, a10, framing.1 a11, fun h => a12.resolve_left (by simp [h]),
        fun h => a13.resolve_left (by simp [h])⟩⟩
  · rintro ⟨c, p⟩
    simp only [State.quiet, State.framed, Bool.and_eq_true, Bool.or_eq_true, alone, Bool.not_eq_true',
      decide_eq_true_eq, Option.isNone_iff_eq_none]
    refine ⟨⟨⟨⟨⟨⟨⟨⟨⟨⟨c.transmit, ?_⟩, ?_⟩, ?_⟩, ?_⟩, ?_⟩, p.rejectionRun⟩, p.rejectRun⟩, p.recessive⟩, p.dominant⟩,
      ⟨framing.2 p.framed, ?_⟩, ?_⟩
    · exact (Bool.eq_false_or_eq_true _).imp_right p.silent
    · exact (Bool.eq_false_or_eq_true _).symm.imp_right c.lapsed
    · exact (em _).imp_right c.window
    · exact or_assoc.2 ((em _).imp_right c.holdOff)
    · by_cases h : s.ctl.station = .solo ∨ s.ctl.station = .unconfigured
      · exact .inr (c.alone h)
      · exact .inl (not_or.1 h)
    · exact (Bool.eq_false_or_eq_true _).imp_right p.unstuck
    · exact (Bool.eq_false_or_eq_true _).symm.imp_right p.stuck

/-! ### The kinds a state may send (R137) -/

section Kinds

variable {c : Controller}

theorem Controller.transmitFits_learning (h : c.station = .learning) : c.transmitFits = true ↔
    c.transmit.claim = false ∧ c.transmit.release = false ∧ c.transmit.renew = false ∧ c.transmit.withdraw = false ∧
      c.transmit.evictTargets = [] := by
  simp [Controller.transmitFits, h, and_assoc, List.isEmpty_iff]

theorem Controller.transmitFits_inService (h : c.station = .inService) : c.transmitFits = true ↔
    c.transmit.hello = false ∧ (c.transmit.release = false ∨ c.transmit.renew = false) ∧
      c.transmit.evict.entry c.id = none := by
  simp [Controller.transmitFits, h, and_assoc]

theorem Controller.transmitFits_leaving (h : c.station = .leaving) : c.transmitFits = true ↔
    c.transmit.hello = false ∧ c.transmit.claim = false ∧ c.transmit.evictTargets = [] ∧
      (c.transmit.release = false ∨ c.transmit.renew = false) := by
  simp [Controller.transmitFits, h, and_assoc, List.isEmpty_iff]

/-- Off the bus nothing may be sent, and so nothing is queued. -/
theorem Controller.transmitFits_offBus (h : c.station.onBus = false) : c.transmitFits = true ↔
    c.transmit.hello = false ∧ c.transmit.claim = false ∧ c.transmit.release = false ∧ c.transmit.renew = false ∧
      c.transmit.withdraw = false ∧ c.transmit.evictTargets = [] := by
  cases hs : c.station <;> simp [hs, StationState.onBus] at h <;>
    simp [Controller.transmitFits, hs, and_assoc, List.isEmpty_iff]

end Kinds

theorem StationState.onBus_cases {st : StationState} (h : st.onBus = true) :
    st = .learning ∨ st = .inService ∨ st = .leaving := by
  cases st <;> simp [StationState.onBus] at h ⊢

theorem StationState.keepsLease_iff {st : StationState} : st.keepsLease = true ↔ st = .inService ∨ st = .leaving := by
  cases st <;> simp [StationState.keepsLease]

theorem emptyTransmit_evictTargets : emptyTransmit.evictTargets = [] := by decide

theorem evict_entry_eq_none {x : TransmitSet} (h : x.evictTargets = []) (k : StationId) : x.evict.entry k = none := by
  simpa using List.filter_eq_nil_iff.1 h k (mem_stationIds k)

theorem Controller.Alone.of_entries {c d : Controller} (h : c.Alone) (id : d.id = c.id)
    (entries : ∀ k, k ≠ c.id → { d.table.entry k with age := 0 } = { c.table.entry k with age := 0 }) : d.Alone :=
  fun k hk => (entries k (id ▸ hk)).trans (h k (id ▸ hk))

theorem Controller.Alone.setOwn {c : Controller} (h : c.Alone) (e : Entry) : (c.setOwn e).Alone :=
  h.of_entries rfl fun _ hk =>
    congrArg (fun x : Entry => { x with age := 0 }) (PerStation.entry_put_other c.table hk e)

/-- No other station waits where none is known. -/
theorem Controller.Alone.otherWaiting {c : Controller} (h : c.Alone) : otherWaiting c.table c.id = false := by
  refine List.any_eq_false.2 fun k hk => ?_
  have blank : ({ c.table.entry k with age := 0 } : Entry).waiting = none :=
    congrArg Entry.waiting (h k (mem_idsBut.1 hk))
  exact Bool.eq_false_iff.1 (congrArg Option.isSome blank)

namespace Controller.Quiet

variable {c d : Controller}

/-- The same station state with the same transmit set and timers, whatever the table says of the own station or of ages. -/
theorem of_table (h : c.Quiet) (station : d.station = c.station) (id : d.id = c.id) (transmit : d.transmit = c.transmit)
    (lapsed : d.lapsed = c.lapsed) (window : d.window.isSome = c.window.isSome) (holdOff : d.holdOff.isSome = c.holdOff.isSome)
    (alone : c.Alone → d.Alone) : d.Quiet where
  transmit := by
    have same : d.transmitFits = c.transmitFits := by simp only [Controller.transmitFits, station, id, transmit]
    exact same ▸ h.transmit
  lapsed := by rw [station, lapsed]; exact h.lapsed
  window some := by
    rw [station]
    exact h.window (Option.isSome_iff_ne_none.1 (window ▸ Option.isSome_iff_ne_none.2 some))
  holdOff some := by
    rw [station]
    exact h.holdOff (Option.isSome_iff_ne_none.1 (holdOff ▸ Option.isSome_iff_ne_none.2 some))
  alone st := alone (h.alone (station ▸ st))

theorem setOwn (h : c.Quiet) (e : Entry) : (c.setOwn e).Quiet :=
  h.of_table rfl rfl rfl rfl rfl rfl fun alone => alone.setOwn e

/-- A state off the bus with nothing to send and no timer. -/
theorem of_offBus (transmit : d.transmitFits = true) (lapsed : d.lapsed = false) (window : d.window = none)
    (holdOff : d.holdOff = none) (alone : d.station = .solo ∨ d.station = .unconfigured → d.Alone) : d.Quiet :=
  ⟨transmit, by simp [lapsed], by simp [window], by simp [holdOff], alone⟩

/-- Another transmit set of the kinds of the same state. -/
theorem withTransmit (h : c.Quiet) {x : TransmitSet} (fits : ({ c with transmit := x } : Controller).transmitFits = true) :
    ({ c with transmit := x } : Controller).Quiet :=
  ⟨fits, h.lapsed, h.window, h.holdOff, h.alone⟩

/-- Another hold-off in a state that has one. -/
theorem withHoldOff (h : c.Quiet) (has : c.station = .inService ∨ c.station = .solo) (n : Option Nat) :
    ({ c with holdOff := n } : Controller).Quiet :=
  ⟨h.transmit, h.lapsed, h.window, fun _ => has, h.alone⟩

theorem noHoldOff (h : c.Quiet) : ({ c with holdOff := none } : Controller).Quiet :=
  ⟨h.transmit, h.lapsed, h.window, fun some => absurd rfl some, h.alone⟩

theorem holdOff_none (h : c.Quiet) (hi : c.station ≠ .inService) (hs : c.station ≠ .solo) : c.holdOff = none :=
  not_not.1 fun some => (h.holdOff some).elim hi hs

theorem window_none (h : c.Quiet) (hl : c.station ≠ .learning) : c.window = none := not_not.1 fun some => hl (h.window some)

theorem lapsed_false (h : c.Quiet) (hk : c.station.keepsLease = false) : c.lapsed = false := by
  cases lapsed : c.lapsed with
  | false => rfl
  | true => exact absurd (h.lapsed lapsed) (by simp [hk])

/-! ### The transmit set's upkeep (R90, R92, R99, R117, R137, R154) -/

theorem withTransmit_inService (h : c.Quiet) (hs : c.station = .inService) {x : TransmitSet} (hello : x.hello = false)
    (one : x.release = false ∨ x.renew = false) (evict : x.evict.entry c.id = none) :
    ({ c with transmit := x } : Controller).Quiet :=
  h.withTransmit ((transmitFits_inService (c := { c with transmit := x }) hs).2 ⟨hello, one, evict⟩)

/-- RELEASE and RENEW are never both queued by an IN_SERVICE station. -/
theorem queueRelease (h : c.Quiet) (hs : c.station = .inService) :
    ({ c with transmit := c.transmit.queueRelease } : Controller).Quiet := by
  obtain ⟨hello, -, evict⟩ := (transmitFits_inService hs).1 h.transmit
  exact h.withTransmit_inService (x := c.transmit.queueRelease) hs hello (.inr rfl) evict

theorem evict_examineEvicts_own (l : Nat) (own : StationId) (t : PerStation Entry)
    (pending : PerStation (Option (BitVec 4))) : (examineEvicts l own t pending).entry own = none := by
  simp [examineEvicts, PerStation.entry]

theorem tendEvicts (h : c.Quiet) : c.tendEvicts.Quiet := by
  unfold Controller.tendEvicts
  split
  · rename_i hs
    obtain ⟨hello, one, -⟩ := (transmitFits_inService hs).1 h.transmit
    exact h.withTransmit_inService hs hello one (evict_examineEvicts_own ..)
  · exact h

theorem tendLeaving (h : c.Quiet) (hs : c.station = .leaving) : c.tendLeaving.Quiet := by
  obtain ⟨hello, -, evict, one⟩ := (transmitFits_leaving hs).1 h.transmit
  refine ⟨(transmitFits_leaving (c := c.tendLeaving) hs).2 ?_, h.lapsed, h.window, fun some => absurd rfl some, h.alone⟩
  unfold Controller.tendLeaving
  dsimp only
  split
  · exact ⟨hello, rfl, evict, .inr rfl⟩
  · exact ⟨hello, rfl, evict, one⟩

end Controller.Quiet

namespace State

variable {s t : State}

theorem tendExcess_quiet (h : s.ctl.Quiet) (hs : s.ctl.station = .inService ∨ s.ctl.station = .solo) :
    s.tendExcess.ctl.Quiet := by
  unfold tendExcess
  split
  · split
    · exact h.noHoldOff
    · split
      · rename_i other
        rcases hs with hs | hs
        · exact (h.queueRelease hs).noHoldOff
        · exact absurd other (by simp [(h.alone (.inl hs)).otherWaiting])
      · exact h.withHoldOff hs _
  · exact h.noHoldOff

theorem tendClaims_quiet (h : s.ctl.Quiet) (hs : s.ctl.station = .inService) : s.tendClaims.ctl.Quiet :=
  have ⟨hello, one, evict⟩ := (Controller.transmitFits_inService hs).1 h.transmit
  h.withTransmit_inService hs hello one evict

theorem tendTransmit_quiet (h : s.ctl.Quiet) : s.tendTransmit.ctl.Quiet := by
  unfold tendTransmit
  split
  · rename_i hs
    exact tendClaims_quiet (tendExcess_quiet h (.inl hs)) ((tendExcess_ctl_station s).trans hs)
  · rename_i hs
    exact tendExcess_quiet h (.inr hs)
  · rename_i hs
    exact h.tendLeaving hs
  all_goals exact h.noHoldOff

theorem soloClaim_cases (s : State) : s.soloClaim = s ∨
    (s.ctl.station = .solo ∧ s.claimNeeded = true ∧ s.claimTotal ≤ s.ctl.budget ∧
      s.soloClaim = { s with ctl := s.ctl.setOwn { s.ctl.own.advanced with held := s.claimTotal, waiting := none } }) := by
  unfold soloClaim
  split
  · rename_i claims
    exact .inr ⟨claims.1, claims.2.1, claims.2.2, rfl⟩
  · exact .inl rfl

theorem admitAll_quiet (h : s.ctl.Quiet) : s.admitAll.ctl.Quiet := by
  rw [admitAll, tryBanks_ctl]
  rcases s.tryBanks.soloClaim_cases with same | ⟨-, -, -, same⟩ <;> rw [same]
  · rwa [tryBanks_ctl]
  · rw [tryBanks_ctl]
    exact h.setOwn _

theorem settle_quiet (h : s.ctl.Quiet) : s.settle.ctl.Quiet := by
  refine tendTransmit_quiet ?_
  rw [orderPauses_ctl, noteWaiting_ctl]
  refine admitAll_quiet ?_
  rwa [advanceBanks_ctl]

end State

/-! ### The bit counts (R124, R125, R142) -/

namespace Port.Quiet

variable {onBus : Bool} {p : Port}

theorem countDominant_unstuck (p : Port) (r : Bool) (h : (p.countDominant r).stuck = false) :
    (p.countDominant r).dominantCount < stuckBits := by
  unfold Port.countDominant at h ⊢
  split
  · exact (by decide : 0 < stuckBits)
  · rename_i hr
    simp only [hr, Bool.or_eq_false_iff, decide_eq_false_iff_not, Bool.false_eq_true, if_false] at h
    exact lt_of_le_of_ne (Nat.min_le_left _ _) h.2

theorem countDominant_le (p : Port) (r : Bool) : (p.countDominant r).dominantCount ≤ stuckBits := by
  unfold Port.countDominant
  split
  · exact Nat.zero_le _
  · exact Nat.min_le_left _ _

theorem outBit_recessive (p : Port) (r : Bool) : (p.outBit r).recessiveCount ≤ clearBits ∧
    ((p.outBit r).stuck = true → (p.outBit r).recessiveCount < clearBits) := by
  unfold Port.outBit Port.countRecessive
  cases r with
  | true =>
    refine ⟨Nat.min_le_left _ _, fun stuck => ?_⟩
    simp only [Port.countDominant, if_true, Bool.and_eq_true, decide_eq_true_eq] at stuck ⊢
    exact lt_of_le_of_ne (Nat.min_le_left _ _) stuck.2
  | false => exact ⟨Nat.zero_le _, fun _ => (by decide : 0 < clearBits)⟩

/-- A bit read out of frame. -/
theorem outBit (h : p.Quiet onBus) (r : Bool) (framed : (p.outBit r).Framed onBus) : (p.outBit r).Quiet onBus where
  silent off := (Port.outBit_sending p r).trans (h.silent off)
  rejectionRun := (Port.outBit_rejectionRun p r).trans_le h.rejectionRun
  rejectRun := (Port.outBit_rejectRun p r).trans_le h.rejectRun
  recessive := (outBit_recessive p r).1
  dominant := countDominant_le _ r
  framed := framed
  unstuck := countDominant_unstuck _ r
  stuck := (outBit_recessive p r).2

theorem outOfFrame_of_offBus (h : p.Quiet onBus) (off : onBus = false) : p.framing = .outOfFrame := by
  have framed := h.framed
  unfold Port.Framed at framed
  split at framed
  · assumption
  · exact absurd (framed.1.symm.trans off) Bool.noConfusion

/-- A port that sends nothing out of frame is framed. -/
theorem framed_of_silent (hf : p.framing = .outOfFrame) (hs : p.sending = none) : p.Framed onBus := by
  simp [Port.Framed, hf, hs]

theorem outBit_offBus (h : p.Quiet onBus) (off : onBus = false) (r : Bool) : (p.outBit r).Quiet onBus :=
  h.outBit r (framed_of_silent ((Port.outBit_framing p r).trans (h.outOfFrame_of_offBus off))
    ((Port.outBit_sending p r).trans (h.silent off)))

theorem abandon (h : p.Quiet onBus) (on : Bool) : p.abandon.Quiet on :=
  ⟨fun _ => rfl, h.rejectionRun, h.rejectRun, h.recessive, h.dominant, framed_of_silent rfl rfl, h.unstuck, h.stuck⟩

theorem of_onBus (h : p.Quiet true) (hf : p.framing = .outOfFrame) (hs : p.sending = none) : p.Quiet onBus :=
  ⟨fun _ => hs, h.rejectionRun, h.rejectRun, h.recessive, h.dominant, framed_of_silent hf hs, h.unstuck, h.stuck⟩

end Port.Quiet

end Sys2Proof.Machine

/-! # Every step keeps the port quiet -/

namespace Sys2Proof.Machine

/-! ### A frame's end (R136, R139, R149, R154) -/

/-- The frame leaves the set, and a RENEW with it; nothing joins it (R93, R139). -/
theorem TransmitSet.afterOwn_clears (x : TransmitSet) (p : Payload) :
    (x.hello = false → (x.afterOwn p).hello = false) ∧ (x.claim = false → (x.afterOwn p).claim = false) ∧
      (x.release = false → (x.afterOwn p).release = false) ∧ (x.withdraw = false → (x.afterOwn p).withdraw = false) ∧
      (x.afterOwn p).renew = false ∧ (x.afterOwn p).evict = x.evict := by
  cases p <;> exact ⟨fun h => by first | exact h | rfl, fun h => by first | exact h | rfl,
    fun h => by first | exact h | rfl, fun h => by first | exact h | rfl, rfl, rfl⟩

theorem Port.faultAfter_cases {p : Port} {part : Part} {f : StationState} (h : p.faultAfter part = some f) :
    f = .idConflict ∨ f = .configMismatch ∨ f = .txFault ∨ f = .rxFault := by
  unfold Port.faultAfter at h
  (repeat' split at h) <;> cases h <;> simp

theorem lineClosingRecessive_lt (l : Line) : lineClosingRecessive l < idleBits := by
  have three : lineClosingRecessive l ≤ 3 := by
    unfold lineClosingRecessive
    (repeat' split) <;> decide
  exact lt_of_le_of_lt three (by decide)

namespace Controller.Quiet

variable {c : Controller}

/-- On the bus the table may be any. -/
theorem withTable (h : c.Quiet) (on : c.station.onBus = true) (t : PerStation Entry) :
    ({ c with table := t } : Controller).Quiet :=
  ⟨h.transmit, h.lapsed, h.window, h.holdOff, fun st => by
    have st : c.station = .solo ∨ c.station = .unconfigured := st
    rcases st with st | st <;> simp [st, StationState.onBus] at on⟩

theorem transmitFits_afterOwn (h : c.Quiet) (on : c.station.onBus = true) (p : Payload) (d : Controller)
    (station : d.station = c.station) (id : d.id = c.id) (transmit : d.transmit = c.transmit.afterOwn p) :
    d.transmitFits = true := by
  obtain ⟨hello, claim, release, withdraw, renew, evict⟩ := c.transmit.afterOwn_clears p
  have targets : d.transmit.evictTargets = c.transmit.evictTargets := by rw [transmit]; simp [TransmitSet.evictTargets, evict]
  rw [← transmit] at hello claim release withdraw renew evict
  rcases StationState.onBus_cases on with hs | hs | hs
  · obtain ⟨h1, h2, -, h4, h5⟩ := (transmitFits_learning hs).1 h.transmit
    exact (transmitFits_learning (station.trans hs)).2 ⟨claim h1, release h2, renew, withdraw h4, targets.trans h5⟩
  · obtain ⟨h1, -, h3⟩ := (transmitFits_inService hs).1 h.transmit
    exact (transmitFits_inService (station.trans hs)).2 ⟨hello h1, .inr renew, by rw [evict, id, h3]⟩
  · obtain ⟨h1, h2, h3, -⟩ := (transmitFits_leaving hs).1 h.transmit
    exact (transmitFits_leaving (station.trans hs)).2 ⟨hello h1, claim h2, targets.trans h3, .inr renew⟩

theorem ownFrame (h : c.Quiet) (on : c.station.onBus = true) (p : Payload) : (c.ownFrame p).Quiet where
  transmit := h.transmitFits_afterOwn on p _ rfl rfl rfl
  lapsed := nofun
  window some := by
    by_contra other
    have none : (c.ownFrame p).window = none := by
      show c.windowAfterOwn p = none
      have opened : c.windowAfterOwn p = c.window := by
        cases p <;> first | rfl | exact if_neg other
      rw [opened, h.window_none other]
    exact some none
  holdOff := h.holdOff
  alone st := by rcases st with st | st <;> simp [show c.station = _ from st, StationState.onBus] at on

theorem applyFrom (h : c.Quiet) (on : c.station.onBus = true) (sender : StationId) (p : Payload) (objected : Bool) :
    (c.applyFrom sender p objected).Quiet := by
  have table := h.withTable on (applyFrame c.table sender p objected)
  unfold Controller.applyFrom
  dsimp only
  split
  · exact (table.ownFrame on p).tendEvicts
  · exact table.tendEvicts

end Controller.Quiet

theorem Controller.applyFrom_station (c : Controller) (sender : StationId) (p : Payload) (objected : Bool) :
    (c.applyFrom sender p objected).station = c.station := by
  unfold Controller.applyFrom
  dsimp only
  split <;> exact tendEvicts_station _

namespace State

variable {s t : State}

theorem applyVerdict_port (s : State) (v : Verdict) : (s.applyVerdict v).port = s.port := by
  unfold applyVerdict
  (repeat' split) <;> rfl

/-- What applying a verdict makes of the controller, but for DIVERGED. -/
theorem applyVerdict_ctl (s : State) (v : Verdict) : (v.applies = none ∧ s.applyVerdict v = s) ∨
    ∃ sender p, v.applies = some (sender, p) ∧
      ((s.disagrees v = false ∧ (s.applyVerdict v).ctl = s.ctl.applyFrom sender p v.objected) ∨
        (s.disagrees v = true ∧ (s.applyVerdict v).ctl = { s.ctl.applyFrom sender p v.objected with diverged := true })) := by
  unfold applyVerdict
  split
  · exact .inl ⟨by assumption, rfl⟩
  · rename_i sender p applies
    refine .inr ⟨sender, p, applies, ?_⟩
    dsimp only
    split
    · exact .inr ⟨by assumption, rfl⟩
    · rename_i agrees
      exact .inl ⟨Bool.eq_false_iff.2 agrees, rfl⟩

theorem applyVerdict_station (s : State) (v : Verdict) : (s.applyVerdict v).ctl.station = s.ctl.station := by
  rcases s.applyVerdict_ctl v with ⟨-, same⟩ | ⟨sender, p, -, ⟨-, same⟩ | ⟨-, same⟩⟩ <;> rw [same]
  · exact s.ctl.applyFrom_station sender p v.objected
  · exact s.ctl.applyFrom_station sender p v.objected

theorem applyVerdict_quiet (h : s.ctl.Quiet) (on : s.ctl.station.onBus = true) (v : Verdict) :
    (s.applyVerdict v).ctl.Quiet := by
  rcases s.applyVerdict_ctl v with ⟨-, same⟩ | ⟨sender, p, -, ⟨-, same⟩ | ⟨-, same⟩⟩ <;> rw [same]
  · exact h
  · exact h.applyFrom on sender p v.objected
  · have applied := h.applyFrom on sender p v.objected
    exact ⟨applied.transmit, applied.lapsed, applied.window, applied.holdOff, applied.alone⟩

theorem enterFault_quiet {f : StationState} (hf : f = .idConflict ∨ f = .configMismatch ∨ f = .txFault ∨ f = .rxFault) :
    (s.enterFault f).ctl.Quiet := by
  have off : (s.enterFault f).ctl.station.onBus = false := by
    show f.onBus = false
    rcases hf with rfl | rfl | rfl | rfl <;> rfl
  refine .of_offBus ((Controller.transmitFits_offBus off).2 ⟨rfl, rfl, rfl, rfl, rfl, emptyTransmit_evictTargets⟩)
    rfl rfl rfl fun st => ?_
  have st : f = .solo ∨ f = .unconfigured := st
  rcases hf with rfl | rfl | rfl | rfl <;> simp at st

theorem enterConfigured_quiet (h : s.ctl.Quiet) (hl : s.ctl.station ≠ .learning) : s.enterConfigured.ctl.Quiet :=
  .of_offBus ((Controller.transmitFits_offBus rfl).2 ⟨rfl, rfl, rfl, rfl, rfl, emptyTransmit_evictTargets⟩)
    rfl (h.window_none hl) rfl nofun

/-- A station that leaves the bus where a frame requires it is quiet, and so is its port. -/
theorem leaveBus_quiet (h : s.ctl.Quiet) (on : s.ctl.station.onBus = true) (p : s.port.Quiet true) (v : Verdict)
    (broken : Bool) :
    (s.leaveBus v broken).ctl.Quiet ∧ (s.leaveBus v broken).port.Quiet (s.leaveBus v broken).ctl.station.onBus := by
  unfold leaveBus
  split
  · rename_i f hf
    have fault : s.port.faultAfter v.part = some f := by
      split at hf
      · cases hf
      · exact hf
    exact ⟨enterFault_quiet (Port.faultAfter_cases fault), p.abandon _⟩
  · split
    · rename_i leaving
      exact ⟨enterConfigured_quiet h (by simp [leaving.1]), p.abandon _⟩
    · exact ⟨h, on ▸ p⟩

end State

namespace Port.Quiet

variable {p : Port} {l : Line}

/-- A bit of a frame is only counted. -/
theorem countDominant (h : p.Quiet true) {heard : List Bool} (hf : p.framing = .inFrame heard) (r : Bool) :
    (p.countDominant r).Quiet true where
  silent := nofun
  rejectionRun := (Port.countDominant_rejectionRun p r).trans_le h.rejectionRun
  rejectRun := (Port.countDominant_rejectRun p r).trans_le h.rejectRun
  recessive := (Port.countDominant_recessiveCount p r).trans_le h.recessive
  dominant := countDominant_le p r
  framed := by
    have framed := h.framed
    simp only [Port.Framed, Port.countDominant_framing, Port.countDominant_sending, Port.countDominant_recessiveCount] at framed ⊢
    exact framed
  unstuck := countDominant_unstuck p r
  stuck _ := by
    have framed := h.framed
    simp only [Port.Framed, hf] at framed
    rw [Port.countDominant_recessiveCount, framed.2.2.2]
    decide

theorem frameOver (h : p.Quiet true) (l : Line) : (p.frameOver l).Quiet true where
  silent := nofun
  rejectionRun := h.rejectionRun
  rejectRun := h.rejectRun
  recessive := (lineClosingRecessive_lt l).le.trans (by decide)
  dominant := h.dominant
  framed := .inr (lineClosingRecessive_lt l)
  unstuck := h.unstuck
  stuck _ := (lineClosingRecessive_lt l).trans (by decide)

/-- The runs stand at their limits at most. -/
theorem countRuns (h : p.Quiet true) (v : Verdict) : (p.countRuns v).Quiet true := by
  have runs {x y : Nat} (hx : x ≤ rejectionRunLimit) (hy : y ≤ rejectRunLimit) :
      ({ p with rejectionRun := x, rejectRun := y } : Port).Quiet true :=
    ⟨nofun, hx, hy, h.recessive, h.dominant, h.framed, h.unstuck, h.stuck⟩
  have kept := runs h.rejectionRun h.rejectRun
  have capped := runs (Nat.min_le_left rejectionRunLimit (p.rejectionRun + 1)) h.rejectRun
  have rejects := runs h.rejectionRun (Nat.min_le_left rejectRunLimit (p.rejectRun + 1))
  unfold Port.countRuns
  split
  · exact runs (by split; exacts [Nat.min_le_left _ _, Nat.zero_le _]) h.rejectRun
  · exact capped
  · exact runs h.rejectionRun (Nat.zero_le _)
  · exact rejects
  · exact rejects
  · exact rejects
  · exact kept
  · exact kept

theorem startBit (h : p.Quiet true) :
    ({ p.countDominant false with framing := .inFrame [false], recessiveCount := 0 } : Port).Quiet true where
  silent := nofun
  rejectionRun := (Port.countDominant_rejectionRun p false).trans_le h.rejectionRun
  rejectRun := (Port.countDominant_rejectRun p false).trans_le h.rejectRun
  recessive := Nat.zero_le _
  dominant := countDominant_le p false
  framed := ⟨rfl, by decide, .inl (by simp), rfl⟩
  unstuck := countDominant_unstuck p false
  stuck _ := (by decide : 0 < clearBits)

/-- An out-of-frame bit leaves the port quiet, where a lost attempt's idle is settled. -/
theorem freeBit (h : p.Quiet true) (hf : p.framing = .outOfFrame) (r : Bool) :
    if (p.freeBit r).sending.isSome && (p.freeBit r).idle then ({ p.freeBit r with sending := none } : Port).Quiet true
    else (p.freeBit r).Quiet true := by
  unfold Port.freeBit
  split
  · rw [if_neg (by simp [Port.idle])]
    exact h.startBit
  · have out : (p.outBit r).framing = .outOfFrame := (Port.outBit_framing p r).trans hf
    split
    · exact ⟨nofun, (Port.outBit_rejectionRun p r).trans_le h.rejectionRun, (Port.outBit_rejectRun p r).trans_le h.rejectRun,
        (outBit_recessive p r).1, countDominant_le _ r, framed_of_silent out rfl, countDominant_unstuck _ r,
        (outBit_recessive p r).2⟩
    · rename_i busy
      refine h.outBit r ?_
      simp only [Port.idle, out, decide_true, Bool.true_and, Bool.and_eq_true, decide_eq_true_eq, not_and, not_le] at busy
      simp only [Port.Framed, out]
      by_cases sends : (p.outBit r).sending = none
      · exact .inl sends
      · exact .inr (busy (Option.isSome_iff_ne_none.2 sends))

end Port.Quiet

namespace State

variable {s t : State}

theorem quiet_of (ctl : s.ctl.Quiet) (port : s.port.Quiet s.ctl.station.onBus) : s.quiet = true := quiet_iff.2 ⟨ctl, port⟩

/-- What settles a quiet state leaves it quiet. -/
theorem quiet_settle (h : s.quiet = true) : s.settle.quiet = true := by
  obtain ⟨ctl, port⟩ := quiet_iff.1 h
  exact quiet_of (settle_quiet ctl) (by rwa [settle_port, settle_ctl_station])

theorem endFrame_quiet (ctl : s.ctl.Quiet) (on : s.ctl.station.onBus = true) (port : s.port.Quiet true) (l : Line) :
    (s.endFrame l).quiet = true := by
  refine quiet_settle ?_
  have applied := applyVerdict_quiet ctl on (s.verdict l)
  have station := s.applyVerdict_station (s.verdict l)
  have ended : ((s.applyVerdict (s.verdict l)).port.frameOver l).Quiet true := by
    rw [applyVerdict_port]
    exact port.frameOver l
  have gone {p : Port} (hp : p.Quiet true) := leaveBus_quiet (s := { s.applyVerdict (s.verdict l) with port := p })
    applied (by rw [station]; exact on) hp (s.verdict l) (lineBroken l)
  have both : (if lineBroken l then (s.applyVerdict (s.verdict l)).port.frameOver l
      else ((s.applyVerdict (s.verdict l)).port.frameOver l).countRuns (s.verdict l)).Quiet true := by
    split
    · exact ended
    · exact ended.countRuns _
  exact quiet_of (gone both).1 (gone both).2

theorem slotsAfter_quiet (h : s.port.Quiet true) (heard : List Bool) :
    (s.slotsAfter heard).Quiet true ∧ (s.slotsAfter heard).framing = s.port.framing := by
  unfold slotsAfter
  (repeat' split)
  · exact ⟨⟨nofun, h.rejectionRun, h.rejectRun, h.recessive, h.dominant, h.framed, h.unstuck, h.stuck⟩, rfl⟩
  · exact ⟨⟨nofun, h.rejectionRun, h.rejectRun, h.recessive, h.dominant, h.framed, h.unstuck, h.stuck⟩, rfl⟩
  · exact ⟨h, rfl⟩

/-- One bit time keeps the port quiet (R123 to R125). -/
theorem readBit_quiet (h : s.quiet = true) (r : Bool) : (s.readBit r).quiet = true := by
  obtain ⟨ctl, port⟩ := quiet_iff.1 h
  unfold readBit
  split
  · exact h
  · split
    · rename_i on
      rw [on] at port
      split
      · rename_i hf
        have read := port.freeBit hf r
        unfold freeBit
        dsimp only
        split
        · rename_i settles
          rw [if_pos settles] at read
          exact quiet_settle (quiet_of ctl (on ▸ read))
        · rename_i stands
          rw [if_neg stands] at read
          exact quiet_of ctl (on ▸ read)
      · rename_i heard hf
        unfold frameBit
        dsimp only
        split
        · rename_i short
          obtain ⟨slots, framing⟩ := slotsAfter_quiet port (heard ++ [s.readLevel heard r])
          have counted := slots.countDominant (framing.trans hf) (s.readLevel heard r)
          have zero : ((s.slotsAfter (heard ++ [s.readLevel heard r])).countDominant (s.readLevel heard r)).recessiveCount = 0 := by
            have framed := counted.framed
            simp only [Port.Framed, Port.countDominant_framing, framing, hf] at framed
            exact framed.2.2.2
          refine quiet_of ctl (on ▸ ?_)
          exact ⟨nofun, counted.rejectionRun, counted.rejectRun, counted.recessive, counted.dominant,
            ⟨rfl, short, .inl (by simp), zero⟩, counted.unstuck, counted.stuck⟩
        · exact endFrame_quiet (s := { s with port := s.port.countDominant _ }) ctl on (port.countDominant hf _) _
    · rename_i off
      rw [Bool.not_eq_true] at off
      split
      · exact quiet_of ctl (off ▸ (off ▸ port : s.port.Quiet false).outBit_offBus rfl r)
      · exact h

/-! ### Changes of the controller and of the port -/

theorem pruned_le (s : State) : s.pruned.hello = s.ctl.transmit.hello ∧ s.pruned.evict = s.ctl.transmit.evict ∧
    (s.ctl.transmit.claim = false → s.pruned.claim = false) ∧ (s.ctl.transmit.release = false → s.pruned.release = false) ∧
    (s.ctl.transmit.withdraw = false → s.pruned.withdraw = false) ∧
    (s.ctl.transmit.release = false → s.ctl.transmit.renew = false → s.pruned.renew = false) ∧
    (s.ctl.transmit.release = false ∨ s.ctl.transmit.renew = false → s.pruned.release = false ∨ s.pruned.renew = false) := by
  unfold pruned
  dsimp only
  refine ⟨rfl, rfl, fun h => by simp [h], fun h => by simp [h], fun h => by simp [h], fun h h' => by simp [h, h'], ?_⟩
  rintro (h | h)
  · simp [h]
  · cases wanted : s.releaseWanted <;> simp [h]

/-- The choice at an attempt's start takes frames from the set, or queues RENEW for a RELEASE it removes (R137, R138). -/
theorem pruned_quiet (h : s.ctl.Quiet) (on : s.ctl.station.onBus = true) :
    ({ s.ctl with transmit := s.pruned } : Controller).Quiet := by
  obtain ⟨hello, evict, claim, release, withdraw, renew, one⟩ := s.pruned_le
  have targets : s.pruned.evictTargets = s.ctl.transmit.evictTargets := by simp [TransmitSet.evictTargets, evict]
  refine h.withTransmit ?_
  rcases StationState.onBus_cases on with hs | hs | hs
  · obtain ⟨h1, h2, h3, h4, h5⟩ := (Controller.transmitFits_learning hs).1 h.transmit
    exact (Controller.transmitFits_learning (c := { s.ctl with transmit := s.pruned }) hs).2
      ⟨claim h1, release h2, renew h2 h3, withdraw h4, targets.trans h5⟩
  · obtain ⟨h1, h2, h3⟩ := (Controller.transmitFits_inService hs).1 h.transmit
    exact (Controller.transmitFits_inService (c := { s.ctl with transmit := s.pruned }) hs).2
      ⟨hello.trans h1, one h2, by rw [evict]; exact h3⟩
  · obtain ⟨h1, h2, h3, h4⟩ := (Controller.transmitFits_leaving hs).1 h.transmit
    exact (Controller.transmitFits_leaving (c := { s.ctl with transmit := s.pruned }) hs).2
      ⟨hello.trans h1, claim h2, targets.trans h3, one h4⟩

/-- An attempt starts on the bus, at an idle bus, with the frame that the pruned set offers first. -/
theorem startAttempt_cases (s : State) : s.startAttempt = s ∨ (s.ctl.station.onBus = true ∧ s.port.sending = none ∧
    (s.startAttempt = { s with ctl := { s.ctl with transmit := s.pruned } } ∨
      ∃ p, s.chosen = some p ∧ s.startAttempt = { s with
        ctl := { s.ctl with transmit := s.pruned }
        port := { s.port with
          framing := .inFrame [], recessiveCount := 0, sending := some ⟨p, frameLine s.ctl.id s.ctl.digest p⟩ } })) := by
  unfold startAttempt
  split
  · rename_i ready
    simp only [Bool.and_eq_true, Option.isNone_iff_eq_none] at ready
    refine .inr ⟨ready.1.1.1, ready.2, ?_⟩
    dsimp only
    split
    · exact .inl rfl
    · rename_i p hp
      exact .inr ⟨p, hp, rfl⟩
  · exact .inl rfl

theorem startAttempt_quiet (ctl : s.ctl.Quiet) (port : s.port.Quiet s.ctl.station.onBus) :
    s.startAttempt.ctl.Quiet ∧ s.startAttempt.port.Quiet s.startAttempt.ctl.station.onBus := by
  rcases s.startAttempt_cases with same | ⟨on, -, same | ⟨p, -, same⟩⟩ <;> rw [same]
  · exact ⟨ctl, port⟩
  · exact ⟨pruned_quiet ctl on, port⟩
  · refine ⟨pruned_quiet ctl on, ?_⟩
    rw [on] at port
    show Port.Quiet s.ctl.station.onBus _
    rw [on]
    exact ⟨nofun, port.rejectionRun, port.rejectRun, Nat.zero_le _, port.dominant,
      ⟨rfl, by decide, .inr rfl, rfl⟩, port.unstuck, fun _ => (by decide : 0 < clearBits)⟩

theorem Tended.quiet {d : Controller} {q : Port} (h : s.Tended d q) (ctl : s.ctl.Quiet)
    (port : s.port.Quiet s.ctl.station.onBus) : d.Quiet ∧ q.Quiet d.station.onBus := by
  cases h with
  | read => exact ⟨ctl.of_table rfl rfl rfl rfl rfl rfl id, port⟩
  | joined may =>
    refine ⟨⟨(Controller.transmitFits_learning rfl).2 ⟨rfl, rfl, rfl, rfl, emptyTransmit_evictTargets⟩, nofun, fun some => absurd rfl some,
      fun some => absurd rfl some, nofun⟩, ?_⟩
    exact ⟨nofun, Nat.zero_le _, Nat.zero_le _, Nat.zero_le _, port.dominant, Port.Quiet.framed_of_silent rfl rfl, port.unstuck,
      fun _ => (by decide : 0 < clearBits)⟩
  | gone hs => exact ⟨enterConfigured_quiet ctl (by simp [hs]), port.abandon _⟩
  | leaving hs =>
    obtain ⟨-, one, -⟩ := (Controller.transmitFits_inService hs).1 ctl.transmit
    have empty : ({ s.ctl.transmit with claim := false, evict := Vector.replicate 16 none, hello := false } :
        TransmitSet).evictTargets = [] := emptyTransmit_evictTargets
    have set : ({ s.ctl with
        station := .leaving
        transmit := { s.ctl.transmit with claim := false, evict := Vector.replicate 16 none, hello := false }
        holdOff := none } : Controller).Quiet :=
      ⟨(Controller.transmitFits_leaving rfl).2 ⟨rfl, rfl, empty, one⟩, fun _ => rfl,
        fun some => absurd (ctl.window_none (by simp [hs])) some, fun some => absurd rfl some, nofun⟩
    refine ⟨set.tendLeaving rfl, ?_⟩
    rw [hs] at port
    show Port.Quiet (s.startLeaving.ctl.station).onBus s.port
    have station : s.startLeaving.ctl.station = .leaving := Controller.tendLeaving_station _
    rw [station]
    exact port
  | renewing runs =>
    have keeps : s.ctl.station.keepsLease = true := by
      simp only [Controller.leaseRuns, Bool.and_eq_true] at runs
      exact runs.1.1
    have one {a b : Bool} (h : a = false ∨ b = false) : a = false ∨ (b || !a) = false := by revert h; cases a <;> cases b <;> simp
    refine ⟨⟨?_, ctl.lapsed, ctl.window, ctl.holdOff, ctl.alone⟩, port⟩
    rcases StationState.keepsLease_iff.1 keeps with hs | hs
    · obtain ⟨h1, h2, h3⟩ := (Controller.transmitFits_inService hs).1 ctl.transmit
      exact (Controller.transmitFits_inService (by exact hs)).2 ⟨h1, one h2, h3⟩
    · obtain ⟨h1, h2, h3, h4⟩ := (Controller.transmitFits_leaving hs).1 ctl.transmit
      exact (Controller.transmitFits_leaving (by exact hs)).2 ⟨h1, h2, h3, one h4⟩
  | silent k =>
    have aged : ({ s.ctl with table := s.ctl.table.put k ((s.ctl.table.entry k).silent s.ctl.leaseTicks) } : Controller).Quiet := by
      refine ctl.of_table rfl rfl rfl rfl rfl rfl fun alone => alone.of_entries rfl fun j _ => ?_
      by_cases same : j = k
      · subst same
        exact congrArg (fun e : Entry => { e with age := 0 }) (PerStation.entry_put s.ctl.table j _)
      · exact congrArg (fun e : Entry => { e with age := 0 }) (PerStation.entry_put_other s.ctl.table same _)
    refine ⟨aged.tendEvicts, ?_⟩
    rw [Controller.ageOut, Controller.tendEvicts_station]
    exact port
  | older =>
    refine ⟨ctl.of_table rfl rfl rfl rfl ?_ ?_ fun alone => alone.of_entries rfl fun j _ => ?_, port⟩
    · exact Option.isSome_map
    · exact Option.isSome_map
    · simp [Controller.tick, PerStation.entry]
  | attempting => exact startAttempt_quiet ctl port

theorem Turned.quiet {d : Controller} (h : s.Turned d) (ctl : s.ctl.Quiet) :
    d.Quiet ∧ d.station.onBus = s.ctl.station.onBus := by
  cases h with
  | same => exact ⟨ctl, rfl⟩
  | @configured g hs _ _ _ =>
    have off : s.ctl.station.onBus = false := by rw [hs]; rfl
    have fits := (Controller.transmitFits_offBus off).1 ctl.transmit
    have lapsed := ctl.lapsed_false (by rw [hs]; rfl)
    have window := ctl.window_none (by simp [hs])
    have holdOff := ctl.holdOff_none (by simp [hs]) (by simp [hs])
    unfold Controller.configured
    dsimp only
    split
    · exact ⟨.of_offBus ((Controller.transmitFits_offBus rfl).2 fits) lapsed window holdOff nofun, by rw [off]; rfl⟩
    · exact ⟨.of_offBus ((Controller.transmitFits_offBus rfl).2 fits) lapsed window holdOff
        fun _ => (ctl.alone (.inr hs)).setOwn _, by rw [off]; rfl⟩
  | heldOff runs =>
    have has := ctl.holdOff (Option.isSome_iff_ne_none.1 runs)
    unfold holdOffOver
    dsimp only
    split
    · split
      · exact ⟨ctl.noHoldOff.setOwn _, rfl⟩
      · rename_i other
        exact ⟨ctl.noHoldOff.queueRelease (has.resolve_right other), rfl⟩
    · exact ⟨ctl.noHoldOff, rfl⟩
  | lapsed runs =>
    have keeps : s.ctl.station.keepsLease = true := by
      simp only [Controller.leaseRuns, Bool.and_eq_true] at runs
      exact runs.1.1
    exact ⟨⟨ctl.transmit, fun _ => keeps, ctl.window, ctl.holdOff, ctl.alone⟩, rfl⟩
  | inService hs =>
    obtain ⟨-, h2, h3, -, h5⟩ := (Controller.transmitFits_learning hs).1 ctl.transmit
    have on : ({ s.ctl with
        station := .inService, window := none, transmit := { s.ctl.transmit with hello := false } } : Controller).Quiet :=
      ⟨(Controller.transmitFits_inService rfl).2 ⟨rfl, .inl h2, evict_entry_eq_none h5 _⟩, fun _ => rfl,
        fun some => absurd rfl some, fun _ => .inl rfl, nofun⟩
    exact ⟨on.tendEvicts, by rw [Controller.tendEvicts_station, hs]; rfl⟩

theorem afterReset_quiet (s : State) (straps : StationId) (nonce : Nonce) (hselLow : Bool) :
    (s.afterReset straps nonce hselLow).quiet = true := by
  refine quiet_of (.of_offBus ((Controller.transmitFits_offBus rfl).2 ⟨rfl, rfl, rfl, rfl, rfl, emptyTransmit_evictTargets⟩)
    rfl rfl rfl fun _ k _ => ?_) ⟨fun _ => rfl, Nat.zero_le _, Nat.zero_le _, Nat.zero_le _, Nat.zero_le _, .inl rfl,
    fun _ => (by decide : 0 < stuckBits), nofun⟩
  exact congrArg (fun e : Entry => { e with age := 0 }) (clearedTable_entry k)

theorem Course.quiet (h : s.Course t) (quiet : s.quiet = true) : t.quiet = true := by
  obtain ⟨ctl, port⟩ := quiet_iff.1 quiet
  cases h with
  | kept hc hp => exact quiet_of (hc ▸ ctl) (hc ▸ hp ▸ port)
  | tended _ change => exact quiet_of (change.quiet ctl port).1 (change.quiet ctl port).2
  | @settled x _ live change hp _ _ _ like =>
    obtain ⟨ctl', on⟩ := change.quiet ctl
    have settled := quiet_iff.1 (quiet_settle (quiet_of ctl' (by rw [hp, on]; exact port)))
    exact quiet_of (like.ctl ▸ settled.1) (like.ctl ▸ like.port ▸ settled.2)
  | cut hc hp => exact quiet_of (hc ▸ ctl) (by rw [hp]; exact port.abandon _)
  | fresh straps nonce hselLow => exact afterReset_quiet s straps nonce hselLow

end State

/-- Settles O57: the controller's half and the port's half of the invariant are kept in each way that a step's result comes about. -/
theorem everyStepKeepsThePortQuiet : Obligations.EveryStepKeepsThePortQuiet := by
  intro s t quiet ht
  obtain ⟨pending, wire, course | ⟨bits, rfl⟩⟩ := State.Course.of_step ht
  · exact course.quiet quiet
  · exact State.readBits_induct (s := { s with pending := pending, wire := wire }) (Inv := fun x => x.quiet = true)
      (fun _ b h => State.readBit_quiet h b) quiet bits

end Sys2Proof.Machine

/-! # What settling gives

Settling leaves what runs as it is, and begins nothing but what the gate admits: where a bank begins, what both banks draw is then
within what the gate may let run (R88 to R90, R96, R100). -/

namespace Sys2Proof.Machine

/-- What both banks draw (R87). -/
def State.draw (s : State) : Nat := s.bank0.runningReservation + s.bank1.runningReservation

/-- What runs is within what the gate may let run, in a state in which it may let run anything (R88). -/
def State.Fits (s : State) : Prop := s.ctl.mayDraw = true ∧ s.draw ≤ s.admissible

/-- The operation table is sound, and each queue has one operation at its front. -/
structure State.Ordered (s : State) : Prop where
  table : s.Table
  front : ∀ b, Fronted (s.bank b).queue

/-- What runs stays, and a bank begins only where what runs is then within what the gate may let run. -/
structure State.Admits (s t : State) : Prop where
  station : t.ctl.station = s.ctl.station
  lapsed : t.ctl.lapsed = s.ctl.lapsed
  port : t.port = s.port
  budget : t.ctl.budget = s.ctl.budget
  holding : s.holding ≤ t.holding
  stays : ∀ b, (s.bank b).isRunning = true → (t.bank b).power = (s.bank b).power
  begins : ∀ b, (t.bank b).isRunning = true → (s.bank b).isRunning = true ∨ t.Fits

/-- A bank draws what it drew, or runs as little as before. -/
def Bank.Rests (bk u : Bank) : Prop := u.power = bk.power ∨ (bk.isRunning = false ∧ u.isRunning = false)

namespace State

variable {s t u : State} {b : BankId}

theorem draw_eq (s : State) (b : BankId) :
    s.draw = (s.bank (otherBank b)).runningReservation + (s.bank b).runningReservation := by
  cases b
  · exact Nat.add_comm _ _
  · rfl

/-- The gate admits a bank that runs where what runs is within what it may let run. -/
theorem gateAdmits_iff_fits (run : (s.bank b).isRunning = true) : s.gateAdmits b = true ↔ s.Fits := by
  have own : (s.bank b).runningReservation = (s.bank b).reservation := if_pos run
  simp [gateAdmits, Fits, s.draw_eq b, own]

theorem admissible_le_holding (s : State) : s.admissible ≤ s.holding := by
  unfold admissible
  split
  · exact Nat.min_le_left _ _
  · exact le_rfl

/-- What may be admitted follows the holding, under the same attempt. -/
theorem admissible_mono (port : t.port = s.port) (holding : s.holding ≤ t.holding) : s.admissible ≤ t.admissible := by
  unfold admissible
  rw [port]
  split
  · exact min_le_min_right _ holding
  · exact holding

theorem mayDraw_congr {c d : Controller} (station : d.station = c.station) (lapsed : d.lapsed = c.lapsed) :
    d.mayDraw = c.mayDraw := by
  simp only [Controller.mayDraw, station, lapsed]

/-- The gate judges by the station state, LAPSED, the holding, the attempt and what the banks draw. -/
theorem gateAdmits_congr (mayDraw : t.ctl.mayDraw = s.ctl.mayDraw) (admissible : t.admissible = s.admissible)
    (power : ∀ k, (t.bank k).power = (s.bank k).power) : t.gateAdmits b = s.gateAdmits b := by
  simp only [gateAdmits, mayDraw, admissible, Bank.runningReservation_of_power (power _), Bank.reservation_of_power (power _)]

theorem draw_congr (h : ∀ b, (t.bank b).runningReservation = (s.bank b).runningReservation) : t.draw = s.draw := by
  rw [t.draw_eq .zero, s.draw_eq .zero, h, h]

namespace Admits

theorem mayDraw (h : s.Admits t) : t.ctl.mayDraw = s.ctl.mayDraw := mayDraw_congr h.station h.lapsed

theorem isRunning (h : s.Admits t) (run : (s.bank b).isRunning = true) : (t.bank b).isRunning = true :=
  (Bank.isRunning_of_power (h.stays b run)).trans run

/-- Either what runs is then within what the gate may let run, or the banks draw what they drew. -/
theorem draw (h : s.Admits t) : t.Fits ∨ t.draw = s.draw := by
  by_cases fits : t.Fits
  · exact .inl fits
  · refine .inr (draw_congr fun b => ?_)
    cases run : (s.bank b).isRunning with
    | true => exact Bank.runningReservation_of_power (h.stays b run)
    | false =>
      have rests : (t.bank b).isRunning = false :=
        eq_false_of_ne_true fun begun => (h.begins b begun).elim (by simp [run]) fits
      simp [Bank.runningReservation, run, rests]

theorem fits (h : s.Admits t) (fits : s.Fits) : t.Fits :=
  h.draw.elim id fun same =>
    ⟨h.mayDraw.trans fits.1, same.le.trans (fits.2.trans (admissible_mono h.port h.holding))⟩

theorem trans (h : s.Admits t) (k : t.Admits u) : s.Admits u where
  station := k.station.trans h.station
  lapsed := k.lapsed.trans h.lapsed
  port := k.port.trans h.port
  budget := k.budget.trans h.budget
  holding := h.holding.trans k.holding
  stays b run := (k.stays b (h.isRunning run)).trans (h.stays b run)
  begins b run := (k.begins b run).elim (fun mid => (h.begins b mid).imp_right k.fits) .inr

/-- A change in which no bank begins. -/
theorem of_rests (ctl : t.ctl = s.ctl) (port : t.port = s.port) (banks : ∀ b, (s.bank b).Rests (t.bank b)) :
    s.Admits t where
  station := by rw [ctl]
  lapsed := by rw [ctl]
  port := port
  budget := by rw [ctl]
  holding := by rw [State.holding, State.holding, ctl]
  stays b run := (banks b).resolve_right fun rests => by simp [rests.1] at run
  begins b run := .inl ((banks b).elim (fun same => (Bank.isRunning_of_power same).symm.trans run)
    fun rests => by simp [rests.2] at run)

/-- A change of the controller alone. -/
theorem of_banks (station : t.ctl.station = s.ctl.station) (lapsed : t.ctl.lapsed = s.ctl.lapsed) (port : t.port = s.port)
    (settings : t.ctl.settings = s.ctl.settings) (holding : s.holding ≤ t.holding) (banks : ∀ b, t.bank b = s.bank b) :
    s.Admits t where
  station := station
  lapsed := lapsed
  port := port
  budget := by simp only [Controller.budget, settings]
  holding := holding
  stays b _ := by rw [banks]
  begins b run := .inl (banks b ▸ run)

end Admits

/-! ### The parts of settling -/

theorem setBank_rests {bk : Bank} (h : (s.bank b).Rests bk) (k : BankId) : (s.bank k).Rests ((s.setBank b bk).bank k) := by
  by_cases same : k = b
  · subst same
    rwa [setBank_bank]
  · rw [setBank_bank_ne s same]
    exact .inl rfl

theorem setBank_front (h : ∀ k, Fronted (s.bank k).queue) {bk : Bank} (front : Fronted bk.queue) (k : BankId) :
    Fronted ((s.setBank b bk).bank k).queue := by
  by_cases same : k = b
  · subst same
    rwa [setBank_bank]
  · rw [setBank_bank_ne s same]
    exact h k

theorem advanceBank_admits (h : s.Ordered) (b : BankId) : (s.advanceBank b).Ordered ∧ s.Admits (s.advanceBank b) := by
  cases run : (s.bank b).isRunning with
  | true =>
    rw [advanceBank_of_rest (Bank.advanceStep_of_running run)]
    exact ⟨h, .of_rests rfl rfl fun _ => .inl rfl⟩
  | false =>
    have still : ((s.advanceBank b).bank b).Still := by
      rw [advanceBank, withTurn_bank]
      exact Bank.Still.advance _ (t := Turn.of (s.bank b)) (h.table.accounts b) ⟨h.front b, run⟩
    refine ⟨⟨(KeepsTable.advanceBank s b).table h.table, fun k => ?_⟩,
      .of_rests (s.advanceBank_ctl b) (s.advanceBank_port b) fun k => ?_⟩
    all_goals by_cases same : k = b
    · exact same ▸ still.front
    · exact advanceBank_bank_ne s same ▸ h.front k
    · subst same
      exact .inr ⟨run, still.rests⟩
    · exact advanceBank_bank_ne s same ▸ .inl rfl

theorem tryBank_admits (h : s.Ordered) (b : BankId) : (s.tryBank b).Ordered ∧ s.Admits (s.tryBank b) := by
  rcases s.tryBank_cases b with same | ⟨waits, admitted, tried⟩
  · exact same.symm ▸ ⟨h, .of_rests rfl rfl fun _ => .inl rfl⟩
  · have rests : (s.bank b).isRunning = false := by
      simp only [Bank.isWaiting, Bool.and_eq_true, Bool.not_eq_true'] at waits
      exact waits.2
    obtain ⟨front, power⟩ := Bank.proceed_power (h.table.queue_distinct b) (h.front b) rests
    have ordered : (s.tryBank b).Ordered :=
      ⟨(KeepsTable.tryBank s b).table h.table, tried ▸ setBank_front h.front front⟩
    refine ⟨ordered, ?_⟩
    rw [tried]
    rcases power with same | power
    · exact .of_rests (s.setBank_ctl b _) (s.setBank_port b _) (setBank_rests (.inl (congrArg Bank.power same)))
    · have other (k : BankId) (apart : k ≠ b) : (s.setBank b (s.bank b).proceed).bank k = s.bank k :=
        setBank_bank_ne s apart _
      have reserves : (s.bank b).proceed.reservation = (s.bank b).reservation := congrArg (fun p => p.2.2) power
      have runs : (s.bank b).proceed.isRunning = true := congrArg (fun p => p.2.1) power
      have fits : (s.setBank b (s.bank b).proceed).Fits := by
        simp only [gateAdmits, Bool.and_eq_true, decide_eq_true_eq] at admitted
        refine ⟨by rw [setBank_ctl]; exact admitted.1, ?_⟩
        have own : (s.bank b).proceed.runningReservation = (s.bank b).reservation := by
          rw [Bank.runningReservation, if_pos runs, reserves]
        have same : (s.setBank b (s.bank b).proceed).admissible = s.admissible := by
          simp only [admissible, holding, setBank_port, setBank_ctl]
        rw [draw_eq _ b, setBank_bank, setBank_bank_other, own, same]
        exact admitted.2
      exact ⟨by rw [setBank_ctl], by rw [setBank_ctl], s.setBank_port b _, by rw [setBank_ctl],
        by rw [State.holding, State.holding, setBank_ctl], fun k run => by
          rw [other k fun same => by simp [same, rests] at run], fun _ _ => .inr fits⟩

theorem tryBanks_admits (h : s.Ordered) : s.tryBanks.Ordered ∧ s.Admits s.tryBanks := by
  obtain ⟨ordered, first⟩ := tryBank_admits h .zero
  obtain ⟨ordered, second⟩ := tryBank_admits ordered .one
  exact ⟨ordered, first.trans second⟩

theorem soloClaim_admits (h : s.Ordered) : s.soloClaim.Ordered ∧ s.Admits s.soloClaim := by
  refine ⟨⟨(KeepsTable.soloClaim s).table h.table, fun b => soloClaim_bank s b ▸ h.front b⟩,
    .of_banks (by simp) (by simp) (by simp) (by simp) ?_ fun b => soloClaim_bank s b⟩
  rcases s.soloClaim_cases with same | ⟨-, needed, -, same⟩ <;> rw [same]
  simp only [claimNeeded, Bool.and_eq_true, decide_eq_true_eq] at needed
  show s.holding ≤ (s.ctl.setOwn _).own.held
  rw [Controller.setOwn_own]
  exact needed.2.le

theorem noteWaiting_admits (h : s.Ordered) : s.noteWaiting.Ordered ∧ s.Admits s.noteWaiting := by
  refine ⟨⟨(KeepsTable.noteWaiting s).table h.table, fun b => ?_⟩, .of_rests (by simp) (by simp) fun b => .inl ?_⟩
  all_goals rw [noteWaiting_bank]
  · exact (Bank.noteWaiting_power (h.front b)).1
  · exact (Bank.noteWaiting_power (h.front b)).2

/-- A pause order changes nothing of what a bank draws. -/
theorem orderPause_cases (s : State) (b : BankId) : s.orderPause b = s ∨
    ((s.bank b).hostRunning = true ∧ s.gateAdmits b = false ∧
      s.orderPause b = s.setBank b { s.bank b with pauseOrder := true }) := by
  unfold orderPause
  split
  · rename_i due
    simp only [Bool.and_eq_true, Bool.not_eq_true'] at due
    exact .inr ⟨due.1, due.2, rfl⟩
  · exact .inl rfl

theorem orderPause_power (s : State) (b k : BankId) : ((s.orderPause b).bank k).power = (s.bank k).power ∧
    ((s.orderPause b).bank k).queue = (s.bank k).queue := by
  rcases s.orderPause_cases b with same | ⟨-, -, same⟩ <;> rw [same]
  · exact ⟨rfl, rfl⟩
  · by_cases same : k = b
    · subst same
      rw [setBank_bank]
      exact ⟨rfl, rfl⟩
    · rw [setBank_bank_ne s same]
      exact ⟨rfl, rfl⟩

theorem orderPause_admits (h : s.Ordered) (b : BankId) : (s.orderPause b).Ordered ∧ s.Admits (s.orderPause b) :=
  ⟨⟨(KeepsTable.orderPause s b).table h.table, fun k => (s.orderPause_power b k).2 ▸ h.front k⟩,
    .of_rests (s.orderPause_ctl b) (s.orderPause_port b) fun k => .inl (s.orderPause_power b k).1⟩

theorem tendTransmit_admits (h : s.Ordered) : s.tendTransmit.Ordered ∧ s.Admits s.tendTransmit :=
  ⟨⟨(KeepsTable.tendTransmit s).table h.table, fun b => tendTransmit_bank s b ▸ h.front b⟩,
    .of_banks (by simp) (by simp) (by simp) (by simp)
      (by simp [State.holding, Controller.own]) fun b => tendTransmit_bank s b⟩

/-- Settling leaves what runs, and begins only what the gate admits. -/
theorem settle_admits (h : s.Ordered) : s.settle.Ordered ∧ s.Admits s.settle := by
  obtain ⟨o, a⟩ := advanceBank_admits h .zero
  obtain ⟨o, b⟩ := advanceBank_admits o .one
  obtain ⟨o, c⟩ := tryBanks_admits o
  obtain ⟨o, d⟩ := soloClaim_admits o
  obtain ⟨o, e⟩ := tryBanks_admits o
  obtain ⟨o, f⟩ := noteWaiting_admits o
  obtain ⟨o, g⟩ := orderPause_admits o .zero
  obtain ⟨o, i⟩ := orderPause_admits o .one
  obtain ⟨o, j⟩ := tendTransmit_admits o
  exact ⟨o, a.trans <| b.trans <| c.trans <| d.trans <| e.trans <| f.trans <| g.trans <| i.trans j⟩

/-! ### What settling leaves admitted or ordered to pause (R96) -/

theorem orderPause_gate (s : State) (b k : BankId) : (s.orderPause b).gateAdmits k = s.gateAdmits k := by
  refine gateAdmits_congr (by rw [orderPause_ctl]) ?_ fun k => (s.orderPause_power b k).1
  simp only [admissible, holding, orderPause_ctl, orderPause_port]

theorem orderPause_ordered (s : State) (b : BankId) (run : ((s.orderPause b).bank b).hostRunning = true) :
    (s.orderPause b).gateAdmits b = true ∨ ((s.orderPause b).bank b).pauseOrder = true := by
  rw [orderPause_gate]
  rcases s.orderPause_cases b with same | ⟨-, -, same⟩
  · rw [same] at run ⊢
    cases gate : s.gateAdmits b with
    | true => exact .inl rfl
    | false =>
      refine .inr ?_
      have due : s.orderPause b = s.setBank b { s.bank b with pauseOrder := true } := if_pos (by simp [run, gate])
      rw [← same, due, setBank_bank]
  · exact .inr (by rw [same, setBank_bank])

/-- Once a pause order stands, the other bank's leaves it. -/
theorem orderPauses_ordered (s : State) (b : BankId) (run : (s.orderPauses.bank b).hostRunning = true) :
    s.orderPauses.gateAdmits b = true ∨ (s.orderPauses.bank b).pauseOrder = true := by
  have power := (s.orderPause .zero).orderPause_power .one .zero
  cases b with
  | one => exact (s.orderPause .zero).orderPause_ordered .one run
  | zero =>
    have first : ((s.orderPause .zero).bank .zero).hostRunning = true :=
      (Bank.hostRunning_of_power power.1).symm.trans run
    refine (s.orderPause_ordered .zero first).imp (fun gate => (orderPause_gate _ _ _).trans gate) fun order => ?_
    show (((s.orderPause .zero).orderPause .one).bank .zero).pauseOrder = true
    rcases (s.orderPause .zero).orderPause_cases .one with same | ⟨-, -, same⟩ <;> rw [same]
    · exact order
    · rw [setBank_bank_ne _ (by decide)]
      exact order

/-- What runs once a change is settled is admitted, or its pause order stands. -/
theorem settle_ordered (s : State) (b : BankId) (run : (s.settle.bank b).hostRunning = true) :
    s.settle.gateAdmits b = true ∨ (s.settle.bank b).pauseOrder = true := by
  unfold settle at run ⊢
  rw [tendTransmit_bank] at run ⊢
  have same : ∀ x : State, x.tendTransmit.gateAdmits b = x.gateAdmits b := fun x =>
    gateAdmits_congr (mayDraw_congr (by simp) (by simp)) (by simp [admissible, holding, Controller.own]) fun k => by
      rw [tendTransmit_bank]
  rw [same]
  exact orderPauses_ordered _ b run

/-! ### The own entry -/

/-- Settling leaves the own entry, but for a SOLO claim that it grants within B (R100). -/
theorem settle_own (s : State) : s.settle.ctl.own = s.ctl.own ∨
    (s.ctl.station = .solo ∧ ∃ n, n ≤ s.ctl.budget ∧
      s.settle.ctl.own = { s.ctl.own.advanced with held := n, waiting := none }) := by
  have before : s.advanceBanks.tryBanks.ctl = s.ctl := by simp
  have after : s.settle.ctl.own = s.advanceBanks.tryBanks.soloClaim.ctl.own := by
    simp [settle, admitAll, Controller.own]
  rw [after]
  rcases s.advanceBanks.tryBanks.soloClaim_cases with same | ⟨solo, -, within, same⟩ <;> rw [same]
  · rw [before]
    exact .inl rfl
  · rw [before] at solo within ⊢
    exact .inr ⟨solo, _, within, Controller.setOwn_own _ _⟩

end State

end Sys2Proof.Machine

/-! # Every step keeps the table, what runs and the frame sent within B

What a frame brings to an entry is in range for B, since the receive tests find a received frame in range and a station's own
attempt was in range when it started; and what settles begins no more than the own holding. -/

namespace Sys2Proof.Machine

/-! ### Entries within a budget (R101, R104 to R112) -/

/-- An entry's units are within the budget, and its wait asks no more and stands at no higher level than may be. -/
theorem Entry.within_iff {budget : Nat} {e : Entry} : e.within budget = true ↔
    e.held ≤ budget ∧ ∀ w, e.waiting = some w → w.requested ≤ budget ∧ w.level ≤ 15 := by
  unfold Entry.within Entry.requested Entry.level
  cases e.waiting <;> simp [and_assoc]

/-- An entry that holds no more than B, and waits, if it does, as one within B waits. -/
theorem Entry.within_of_waiting {budget : Nat} {e f : Entry} (h : e.within budget = true) (held : f.held ≤ budget)
    (waiting : f.waiting = none ∨ f.waiting = e.waiting) : f.within budget = true := by
  refine within_iff.2 ⟨held, fun w hw => ?_⟩
  rcases waiting with none | same
  · exact absurd (none.symm.trans hw) nofun
  · exact (within_iff.1 h).2 w (same ▸ hw)

theorem Entry.within_mono {m n : Nat} (le : m ≤ n) {e : Entry} (h : e.within m = true) : e.within n = true := by
  obtain ⟨held, waiting⟩ := within_iff.1 h
  exact within_iff.2 ⟨held.trans le, fun w hw => ⟨(waiting w hw).1.trans le, (waiting w hw).2⟩⟩

theorem clearedEntry_within (budget : Nat) : clearedEntry.within budget = true :=
  Entry.within_iff.2 ⟨Nat.zero_le _, nofun⟩

section Frames

variable {budget : Nat} {e : Entry} {sender : StationId} {p : Payload}

theorem Entry.applied_within (h : e.within budget = true) (range : p.inRange budget sender = true) (objected : Bool) :
    (e.applied p objected).within budget = true := by
  obtain ⟨held, waiting⟩ := within_iff.1 h
  cases p with
  | hello nonce => exact within_iff.2 ⟨Nat.zero_le _, nofun⟩
  | claim q level =>
    have total : q.toNat ≤ budget := of_decide_eq_true range
    unfold Entry.applied
    dsimp only
    split
    · refine within_iff.2 ⟨held, fun w hw => ?_⟩
      obtain rfl := Option.some.inj hw
      exact ⟨total, Nat.min_le_left _ _⟩
    · exact within_iff.2 ⟨total, nofun⟩
  | release total =>
    refine within_iff.2 ⟨of_decide_eq_true range, fun w hw => waiting w ?_⟩
    exact (Option.filter_eq_some_iff.1 hw).1
  | renew units requested level =>
    simp only [Payload.inRange, Bool.and_eq_true, decide_eq_true_eq] at range
    refine within_iff.2 ⟨range.1, fun w hw => ?_⟩
    simp only [Entry.applied] at hw
    split at hw
    · cases hw
    · obtain rfl := Option.some.inj hw
      exact ⟨range.2, Nat.le_of_lt_succ level.isLt⟩
  | evict target generation => exact within_of_waiting h held (.inr rfl)
  | withdraw => exact within_of_waiting h held (.inl rfl)

theorem Entry.evicted_within (h : e.within budget = true) (generation : BitVec 4) :
    (e.evicted generation).within budget = true := by
  unfold Entry.evicted
  split
  · exact within_of_waiting h (Nat.zero_le _) (.inl rfl)
  · exact within_of_waiting h (within_iff.1 h).1 (.inr rfl)

/-- A table in which each entry but one is as it was. -/
theorem within_put {t : PerStation Entry} (h : ∀ k, (t.entry k).within budget = true) {j : StationId} {f : Entry}
    (fine : f.within budget = true) (k : StationId) : ((t.put j f).entry k).within budget = true := by
  by_cases same : k = j
  · rw [same, PerStation.entry_put]
    exact fine
  · rw [PerStation.entry_put_other t same]
    exact h k

/-- A frame in range leaves every entry within the budget (R104, R128). -/
theorem applyFrame_within {t : PerStation Entry} (h : ∀ k, (t.entry k).within budget = true)
    (range : p.inRange budget sender = true) (objected : Bool) (k : StationId) :
    ((applyFrame t sender p objected).entry k).within budget = true := by
  have applied := within_put h (j := sender) (Entry.applied_within (h sender) range objected)
  cases p with
  | evict target generation => exact within_put applied (Entry.evicted_within (applied target) generation) k
  | hello _ => exact applied k
  | claim _ _ => exact applied k
  | release _ => exact applied k
  | renew _ _ _ => exact applied k
  | withdraw => exact applied k

end Frames

/-! ### The invariant's parts -/

/-- The configuration is in its ranges, and every entry is within the budget it gives. -/
structure Controller.Within (c : Controller) : Prop where
  settings : c.settingsFit = true
  entries : ∀ k, (c.table.entry k).within c.budget = true

/-- The entries, what runs, and the frame being sent are within B. -/
structure State.Within (s : State) : Prop where
  ctl : s.ctl.Within
  sends : ∀ a, s.port.sending = some a → a.payload.inRange s.ctl.budget s.ctl.id = true
  draw : s.draw ≤ s.ctl.budget

theorem State.withinBudget_iff {s : State} : s.withinBudget = true ↔ s.Within := by
  have sends : s.sendsInRange = true ↔ ∀ a, s.port.sending = some a → a.payload.inRange s.ctl.budget s.ctl.id = true := by
    unfold State.sendsInRange
    cases s.port.sending <;> simp
  have entries : stationIds.all (fun k => (s.ctl.table.entry k).within s.ctl.budget) = true ↔
      ∀ k, (s.ctl.table.entry k).within s.ctl.budget = true := by simp [mem_stationIds]
  simp only [State.withinBudget, Bool.and_eq_true, sends, entries, decide_eq_true_eq]
  exact ⟨fun ⟨⟨⟨a, b⟩, c⟩, d⟩ => ⟨⟨b, a⟩, c, d⟩, fun ⟨⟨a, b⟩, c, d⟩ => ⟨⟨⟨b, a⟩, c⟩, d⟩⟩

namespace Controller

variable {c d : Controller}

theorem budget_of_settings (h : d.settings = c.settings) : d.budget = c.budget := by simp only [budget, h]

theorem own_held_le (h : c.Within) : c.own.held ≤ c.budget := (Entry.within_iff.1 (h.entries c.id)).1

namespace Within

/-- Nothing moves between UNCONFIGURED, SOLO and the bus states but CONFIGURE and a die reset. -/
theorem of_settings (h : c.Within) (settings : d.settings = c.settings) (digest : d.digest = c.digest)
    (unconfigured : d.station = .unconfigured ↔ c.station = .unconfigured) (solo : d.station = .solo ↔ c.station = .solo)
    (entries : ∀ k, (d.table.entry k).within c.budget = true) : d.Within := by
  refine ⟨?_, fun k => (budget_of_settings settings).symm ▸ entries k⟩
  have fit := h.settings
  unfold settingsFit at fit ⊢
  rw [settings, digest]
  split
  · simp_all
  · simp_all

/-- A change that leaves the configuration and the station state. -/
theorem of_entries (h : c.Within) (settings : d.settings = c.settings) (digest : d.digest = c.digest)
    (station : d.station = c.station) (entries : ∀ k, (d.table.entry k).within c.budget = true) : d.Within :=
  h.of_settings settings digest (by rw [station]) (by rw [station]) entries

/-- A change that leaves the table besides. -/
theorem of_table (h : c.Within) (settings : d.settings = c.settings) (digest : d.digest = c.digest)
    (station : d.station = c.station) (table : d.table = c.table) : d.Within :=
  h.of_entries settings digest station fun k => table ▸ h.entries k

theorem setOwn (h : c.Within) {e : Entry} (within : e.within c.budget = true) : (c.setOwn e).Within :=
  h.of_entries rfl rfl rfl (within_put h.entries within)

/-- A station state other than UNCONFIGURED and SOLO gives way to another such. -/
theorem of_bus (h : c.Within) (settings : d.settings = c.settings) (digest : d.digest = c.digest)
    (before : c.station ≠ .unconfigured ∧ c.station ≠ .solo) (after : d.station ≠ .unconfigured ∧ d.station ≠ .solo)
    (entries : ∀ k, (d.table.entry k).within c.budget = true) : d.Within :=
  h.of_settings settings digest (by simp [before, after]) (by simp [before, after]) entries

/-- No budget is set in UNCONFIGURED. -/
theorem budget_unconfigured (h : c.Within) (hs : c.station = .unconfigured) : c.budget = 0 := by
  have fit := h.settings
  unfold settingsFit at fit
  unfold budget
  cases hg : c.settings with
  | none => rfl
  | some g => simp [hg, hs] at fit

theorem tendEvicts (h : c.Within) : c.tendEvicts.Within :=
  h.of_table (by simp) (by simp) (by simp) (by simp)

theorem applyFrom (h : c.Within) {sender : StationId} {p : Payload} (range : p.inRange c.budget sender = true)
    (objected : Bool) : (c.applyFrom sender p objected).Within := by
  have table : ({ c with table := applyFrame c.table sender p objected } : Controller).Within :=
    h.of_entries rfl rfl rfl (applyFrame_within h.entries range objected)
  unfold Controller.applyFrom
  dsimp only
  split
  · exact (table.of_table (d := Controller.ownFrame { c with table := applyFrame c.table sender p objected } p) rfl rfl rfl rfl).tendEvicts
  · exact table.tendEvicts

end Within

end Controller

namespace StationState

theorem ne_of_onBus {st : StationState} (on : st.onBus = true) : st ≠ .unconfigured ∧ st ≠ .solo := by
  rcases onBus_cases on with h | h | h <;> simp [h]

/-- Only an IN_SERVICE station sends EVICT (R137). -/
theorem inService_of_evict {st : StationState} {k : StationId} {g : BitVec 4} (may : st.maySend (.evict k g) = true) :
    st = .inService := by
  cases st <;> first | rfl | exact absurd may Bool.false_ne_true

end StationState

namespace State

variable {s t x : State}

/-! ### Settling -/

/-- What settles begins no more than the own holding, which is within B. -/
theorem settle_within (h : s.Within) (ordered : s.Ordered) : s.settle.Within := by
  obtain ⟨-, admits⟩ := settle_admits ordered
  have budget : s.settle.ctl.budget = s.ctl.budget := admits.budget
  have own : s.settle.ctl.own.within s.ctl.budget = true := by
    rcases s.settle_own with same | ⟨-, n, within, same⟩ <;> rw [same]
    · exact h.ctl.entries s.ctl.id
    · exact Entry.within_iff.2 ⟨within, nofun⟩
  have ctl : s.settle.ctl.Within := by
    refine h.ctl.of_entries (by simp) (by simp) (by simp) fun k => ?_
    by_cases same : k = s.ctl.id
    · have entry : s.settle.ctl.table.entry k = s.settle.ctl.own := by rw [Controller.own, settle_ctl_id, same]
      exact entry ▸ own
    · exact settle_ctl_entry s same ▸ h.ctl.entries k
  refine ⟨ctl, by simpa [budget] using h.sends, ?_⟩
  rcases admits.draw with fits | same
  · exact fits.2.trans ((admissible_le_holding _).trans (Controller.own_held_le ctl))
  · rw [same, budget]
    exact h.draw

/-! ### Frames -/

theorem receiveTests_inRange {own : StationId} {digest : BitVec 8} {budget : Nat} {l : Line} {p : Payload}
    (h : receiveTests own digest budget l = .good p) : p.inRange budget (lineStation l) = true := by
  unfold receiveTests at h
  iterate 4 (split at h; cases h)
  split at h
  · cases h
  · split at h <;> cases h
    assumption

/-- What this station applies is in range: it was found so, or was so when it was sent (R128, R133). -/
theorem verdict_inRange (h : s.Within) {l : Line} {sender : StationId} {p : Payload}
    (applies : (s.verdict l).applies = some (sender, p)) : p.inRange s.ctl.budget sender = true := by
  have carried : (s.ctl.part s.port.sending l).carries s.ctl.id l = some (sender, p) := by
    unfold verdict at applies
    dsimp only at applies
    split at applies
    · cases applies
    · exact applies
  have received {f : Finding} (found : Part.carries s.ctl.id l (.received f) = some (sender, p))
      (tests : f = receiveTests s.ctl.id s.ctl.digest s.ctl.budget l) : p.inRange s.ctl.budget sender = true := by
    cases f <;> cases found
    exact receiveTests_inRange tests.symm
  unfold Controller.part at carried
  dsimp only at carried
  split at carried
  · exact received carried rfl
  · rename_i a ha
    split at carried
    · cases carried
      exact h.sends a ha
    · split at carried
      · exact received carried rfl
      · cases carried

theorem applyVerdict_within (h : s.Within) (l : Line) : (s.applyVerdict (s.verdict l)).ctl.Within := by
  rcases s.applyVerdict_ctl (s.verdict l) with ⟨-, same⟩ | ⟨sender, p, applies, ⟨-, same⟩ | ⟨-, same⟩⟩ <;> rw [same]
  · exact h.ctl
  · exact h.ctl.applyFrom (verdict_inRange h applies) _
  · exact (h.ctl.applyFrom (verdict_inRange h applies) _).of_table rfl rfl rfl rfl

theorem applyVerdict_settings (s : State) (v : Verdict) : (s.applyVerdict v).ctl.settings = s.ctl.settings ∧
    (s.applyVerdict v).ctl.id = s.ctl.id := by
  have applied (sender : StationId) (p : Payload) : (s.ctl.applyFrom sender p v.objected).settings = s.ctl.settings ∧
      (s.ctl.applyFrom sender p v.objected).id = s.ctl.id := by
    unfold Controller.applyFrom
    dsimp only
    split <;> simp
  rcases s.applyVerdict_ctl v with ⟨-, same⟩ | ⟨sender, p, -, ⟨-, same⟩ | ⟨-, same⟩⟩ <;> rw [same]
  · exact ⟨rfl, rfl⟩
  · exact applied sender p
  · exact applied sender p

theorem applyVerdict_banks (s : State) (v : Verdict) : (s.applyVerdict v).bank0 = s.bank0 ∧
    (s.applyVerdict v).bank1 = s.bank1 ∧ (s.applyVerdict v).completions = s.completions ∧
      (s.applyVerdict v).inReset = s.inReset := by
  unfold applyVerdict
  (repeat' split) <;> exact ⟨rfl, rfl, rfl, rfl⟩

/-- A station that leaves the bus keeps its configuration and its banks, and sends nothing more. -/
theorem leaveBus_within (h : s.Within) (on : s.ctl.station.onBus = true) (v : Verdict) (broken : Bool) :
    (s.leaveBus v broken).Within := by
  have silent {q : Port} (none : q.sending = none) {c : Controller} (a : Attempt) (ha : q.sending = some a) :
      a.payload.inRange c.budget c.id = true := absurd (none.symm.trans ha) nofun
  unfold leaveBus
  split
  · rename_i f hf
    have fault : f = .idConflict ∨ f = .configMismatch ∨ f = .txFault ∨ f = .rxFault := by
      split at hf
      · cases hf
      · exact Port.faultAfter_cases hf
    refine ⟨h.ctl.of_bus rfl rfl (StationState.ne_of_onBus on) ?_ ?_, silent rfl, h.draw⟩
    · show f ≠ _ ∧ f ≠ _
      rcases fault with rfl | rfl | rfl | rfl <;> exact ⟨nofun, nofun⟩
    · exact within_put h.ctl.entries (Entry.within_iff.2 ⟨Nat.zero_le _, nofun⟩)
  · split
    · exact ⟨h.ctl.of_bus rfl rfl (StationState.ne_of_onBus on) ⟨nofun, nofun⟩ h.ctl.entries, silent rfl, h.draw⟩
    · exact h

theorem leaveBus_banks (s : State) (v : Verdict) (broken : Bool) : (s.leaveBus v broken).bank0 = s.bank0 ∧
    (s.leaveBus v broken).bank1 = s.bank1 ∧ (s.leaveBus v broken).completions = s.completions ∧
      (s.leaveBus v broken).inReset = s.inReset := by
  unfold leaveBus
  (repeat' split) <;> exact ⟨rfl, rfl, rfl, rfl⟩

theorem Ordered.of_banks (h : s.Ordered) (bank0 : t.bank0 = s.bank0) (bank1 : t.bank1 = s.bank1)
    (completions : t.completions = s.completions) : t.Ordered := by
  have banks (b : BankId) : t.bank b = s.bank b := by cases b; exacts [bank0, bank1]
  exact ⟨h.table.of_same (fun b => congrArg Bank.queue (banks b)) completions, fun b => (banks b).symm ▸ h.front b⟩

theorem countRuns_sending (p : Port) (v : Verdict) : (p.countRuns v).sending = p.sending := by
  unfold Port.countRuns
  split <;> rfl

/-- A frame applied and counted, before the station leaves the bus where the frame requires it (R136). -/
def frameRead (s : State) (l : Line) : State :=
  { s.applyVerdict (s.verdict l) with
    port :=
      if lineBroken l then (s.applyVerdict (s.verdict l)).port.frameOver l
      else ((s.applyVerdict (s.verdict l)).port.frameOver l).countRuns (s.verdict l) }

/-- The state whose settling ends a frame. -/
def frameEnded (s : State) (l : Line) : State := (s.frameRead l).leaveBus (s.verdict l) (lineBroken l)

theorem endFrame_eq (s : State) (l : Line) : s.endFrame l = (s.frameEnded l).settle := rfl

theorem frameEnded_ordered (h : s.Ordered) (l : Line) : (s.frameEnded l).Ordered := by
  obtain ⟨a0, a1, ac, -⟩ := s.applyVerdict_banks (s.verdict l)
  obtain ⟨b0, b1, bc, -⟩ := (s.frameRead l).leaveBus_banks (s.verdict l) (lineBroken l)
  exact h.of_banks (b0.trans a0) (b1.trans a1) (bc.trans ac)

theorem frameEnded_within (h : s.Within) (on : s.ctl.station.onBus = true) (l : Line) : (s.frameEnded l).Within := by
  obtain ⟨bank0, bank1, -, -⟩ := s.applyVerdict_banks (s.verdict l)
  obtain ⟨settings, id⟩ := s.applyVerdict_settings (s.verdict l)
  have budget := Controller.budget_of_settings settings
  refine leaveBus_within (s := s.frameRead l) ⟨applyVerdict_within h l, fun a ha => ?_, ?_⟩ ?_ _ _
  · have kept : ((s.applyVerdict (s.verdict l)).port.frameOver l).sending = some a := by
      unfold frameRead at ha
      dsimp only at ha
      split at ha
      · exact ha
      · exact (countRuns_sending _ _).symm.trans ha
    rw [applyVerdict_port] at kept
    show a.payload.inRange (s.applyVerdict (s.verdict l)).ctl.budget (s.applyVerdict (s.verdict l)).ctl.id = true
    rw [budget, id]
    exact h.sends a (Option.filter_eq_some_iff.1 kept).1
  · show State.draw _ ≤ (s.applyVerdict (s.verdict l)).ctl.budget
    rw [budget]
    refine le_of_eq_of_le ?_ h.draw
    exact congrArg₂ (fun x y : Bank => x.runningReservation + y.runningReservation) bank0 bank1
  · show (s.applyVerdict (s.verdict l)).ctl.station.onBus = true
    rw [applyVerdict_station]
    exact on

/-! ### One bit -/

/-- A change of the port that sends nothing but what was sent. -/
theorem Within.withPort (h : s.Within) {p : Port} (sends : p.sending = none ∨ p.sending = s.port.sending) :
    ({ s with port := p } : State).Within :=
  ⟨h.ctl, fun a ha => sends.elim (fun none => absurd (none.symm.trans ha) nofun) fun same => h.sends a (same ▸ ha), h.draw⟩

theorem Ordered.withPort (h : s.Ordered) (p : Port) : ({ s with port := p } : State).Ordered := h.of_banks rfl rfl rfl

theorem freeBit_sending (p : Port) (r : Bool) : (p.freeBit r).sending = p.sending := by
  unfold Port.freeBit
  split
  · exact Port.countDominant_sending p false
  · exact Port.outBit_sending p r

theorem slotsAfter_sending (s : State) (heard : List Bool) : (s.slotsAfter heard).sending = s.port.sending := by
  unfold slotsAfter
  (repeat' split) <;> rfl

/-- One bit keeps the operation table and the fronts in order. -/
theorem readBit_ordered (h : s.Ordered) (r : Bool) : (s.readBit r).Ordered := by
  rcases s.readBit_cases r with same | ⟨-, same⟩ | ⟨-, -, same | same⟩ | ⟨heard, -, -, ⟨-, same⟩ | ⟨-, same⟩⟩ <;> rw [same]
  · exact h
  · exact h.withPort _
  · exact h.withPort _
  · exact (settle_admits (h.withPort _)).1
  · exact h.withPort _
  · rw [endFrame_eq]
    exact (settle_admits (frameEnded_ordered (h.withPort _) _)).1

theorem readBit_within (h : s.Within) (ordered : s.Ordered) (r : Bool) : (s.readBit r).Within := by
  rcases s.readBit_cases r with same | ⟨-, same⟩ | ⟨-, -, same | same⟩ | ⟨heard, on, -, ⟨-, same⟩ | ⟨-, same⟩⟩ <;> rw [same]
  · exact h
  · exact h.withPort (.inr (Port.outBit_sending _ r))
  · exact h.withPort (.inr (freeBit_sending _ r))
  · exact settle_within (h.withPort (.inl rfl)) (ordered.withPort _)
  · exact h.withPort (.inr ((Port.countDominant_sending _ _).trans (slotsAfter_sending s _)))
  · have counted := h.withPort (.inr (Port.countDominant_sending s.port (s.readLevel heard r)))
    rw [endFrame_eq]
    exact settle_within (frameEnded_within counted on _) (frameEnded_ordered (ordered.withPort _) _)

/-! ### The start of an attempt (R128, R138) -/

theorem claimTotal_le (h : s.draw ≤ s.ctl.budget) : s.claimTotal ≤ s.ctl.budget := by
  have add {n : Nat} (hn : n ≤ s.ctl.budget) (bk : Bank) : addWaiting s.ctl.budget n bk ≤ s.ctl.budget := by
    unfold addWaiting
    split
    · rename_i fits
      exact fits.2
    · exact hn
  exact add (add h _) _

theorem toNat_ofNat_le {w n m : Nat} (h : n ≤ m) : (BitVec.ofNat w n).toNat ≤ m := by
  rw [BitVec.toNat_ofNat]
  exact (Nat.mod_le _ _).trans h

/-- What an attempt is started with is in range. -/
theorem chosen_inRange (h : s.Within) (quiet : s.ctl.Quiet) {p : Payload} (chosen : s.chosen = some p) :
    p.inRange s.ctl.budget s.ctl.id = true := by
  have may : s.ctl.station.maySend p = true := List.find?_some chosen
  have offered : p ∈ s.offers s.pruned := List.mem_of_find?_eq_some chosen
  obtain ⟨held, waits⟩ := Entry.within_iff.1 (h.ctl.entries s.ctl.id)
  simp only [offers, List.mem_append, List.mem_ite_nil_right, List.mem_singleton, List.mem_map] at offered
  rcases offered with ⟨release, rfl⟩ | ⟨-, rfl⟩ | ⟨k, target, rfl⟩ | ⟨-, rfl⟩ | ⟨-, rfl⟩ | ⟨-, rfl⟩
  · have wanted : s.releaseWanted = true := by
      simp only [pruned, Bool.and_eq_true] at release
      exact release.2
    refine decide_eq_true (toNat_ofNat_le ?_)
    unfold releaseWanted at wanted
    unfold releaseTotal
    split
    · exact Nat.zero_le _
    · rename_i other
      split at wanted
      · contradiction
      · exact (of_decide_eq_true wanted).le.trans held
  · have requested : s.ctl.own.requested ≤ s.ctl.budget := by
      unfold Entry.requested
      split
      · exact Nat.zero_le _
      · rename_i w hw
        exact (waits w hw).1
    simp only [Entry.renewPayload, Payload.inRange, Bool.and_eq_true, decide_eq_true_eq]
    exact ⟨toNat_ofNat_le held, toNat_ofNat_le requested⟩
  · have inService : s.ctl.station = .inService := StationState.inService_of_evict may
    obtain ⟨-, -, own⟩ := (Controller.transmitFits_inService inService).1 quiet.transmit
    refine decide_eq_true fun same => ?_
    have some : (s.ctl.transmit.evict.entry k).isSome = true := (List.mem_filter.1 target).2
    simp [same, own] at some
  · rfl
  · exact decide_eq_true (toNat_ofNat_le (claimTotal_le h.draw))
  · rfl

/-! ### Every way to a step's result -/

theorem Tended.within {d : Controller} {q : Port} (change : s.Tended d q) (h : s.Within) (quiet : s.ctl.Quiet) :
    d.Within ∧ d.budget = s.ctl.budget ∧ ∀ a, q.sending = some a → a.payload.inRange d.budget d.id = true := by
  cases change with
  | read => exact ⟨h.ctl.of_table rfl rfl rfl rfl, rfl, h.sends⟩
  | joined may =>
    have before : s.ctl.station ≠ .unconfigured ∧ s.ctl.station ≠ .solo := by
      constructor <;> intro hs <;> simp [hs, StationState.mayJoin] at may
    refine ⟨h.ctl.of_bus rfl rfl before ⟨nofun, nofun⟩ fun k => ?_, rfl, nofun⟩
    exact clearedTable_entry k ▸ clearedEntry_within _
  | gone hs =>
    exact ⟨h.ctl.of_bus rfl rfl (by simp [hs]) ⟨nofun, nofun⟩ h.ctl.entries, rfl, nofun⟩
  | leaving hs =>
    have budget : s.startLeaving.ctl.budget = s.ctl.budget := Controller.budget_of_settings (by simp [startLeaving])
    refine ⟨h.ctl.of_bus (by simp [startLeaving]) (by simp [startLeaving]) (by simp [hs]) (by simp [startLeaving])
      (by simpa [startLeaving] using h.ctl.entries), budget, ?_⟩
    rw [budget, show s.startLeaving.ctl.id = s.ctl.id by simp [startLeaving]]
    exact h.sends
  | renewing runs => exact ⟨h.ctl.of_table rfl rfl rfl rfl, rfl, h.sends⟩
  | silent k =>
    have aged : ({ s.ctl with table := s.ctl.table.put k ((s.ctl.table.entry k).silent s.ctl.leaseTicks) } :
        Controller).Within :=
      h.ctl.of_entries rfl rfl rfl (within_put h.ctl.entries (h.ctl.entries k))
    have budget : (s.ctl.ageOut k).budget = s.ctl.budget := Controller.budget_of_settings (by simp [Controller.ageOut])
    refine ⟨aged.tendEvicts, budget, ?_⟩
    rw [budget, Controller.ageOut, Controller.tendEvicts_id]
    exact h.sends
  | older =>
    refine ⟨h.ctl.of_entries rfl rfl rfl fun k => ?_, rfl, h.sends⟩
    have entry : (s.ctl.tick.table.entry k) = { s.ctl.table.entry k with age := (s.ctl.table.entry k).age + 1 } := by
      simp [Controller.tick, PerStation.entry]
    exact entry ▸ h.ctl.entries k
  | attempting =>
    rcases s.startAttempt_cases with same | ⟨-, -, same | ⟨p, chosen, same⟩⟩ <;> rw [same]
    · exact ⟨h.ctl, rfl, h.sends⟩
    · exact ⟨h.ctl.of_table rfl rfl rfl rfl, rfl, h.sends⟩
    · refine ⟨h.ctl.of_table rfl rfl rfl rfl, rfl, fun a ha => ?_⟩
      obtain rfl := Option.some.inj ha
      exact chosen_inRange h quiet chosen

theorem Turned.within {d : Controller} (change : s.Turned d) (h : s.Within)
    (port : s.port.Quiet s.ctl.station.onBus) : d.Within ∧ s.ctl.budget ≤ d.budget ∧
      ∀ a, s.port.sending = some a → a.payload.inRange d.budget d.id = true := by
  cases change with
  | same => exact ⟨h.ctl, le_rfl, h.sends⟩
  | @configured g hs budget lease wait =>
    have silent : s.port.sending = none := port.silent (by rw [hs]; rfl)
    have none := h.ctl.budget_unconfigured hs
    have after : (s.ctl.configured g).budget = g.budget ∧ (s.ctl.configured g).settingsFit = true ∧
        ∀ k, ((s.ctl.configured g).table.entry k).within g.budget = true := by
      have entries (k : StationId) : (s.ctl.table.entry k).within g.budget = true :=
        Entry.within_mono (by rw [none]; exact Nat.zero_le _) (h.ctl.entries k)
      unfold Controller.configured
      dsimp only
      split
      · rename_i shared
        exact ⟨rfl, by simp [Controller.settingsFit, shared, budget, lease, wait], entries⟩
      · rename_i solo
        refine ⟨rfl, by simp [Controller.settingsFit, Controller.setOwn, solo, budget, lease, wait], ?_⟩
        exact within_put entries (Entry.within_iff.2 ⟨Nat.zero_le _, nofun⟩)
    obtain ⟨same, fit, entries⟩ := after
    exact ⟨⟨fit, by rw [same]; exact entries⟩, by rw [none]; exact Nat.zero_le _,
      fun a ha => absurd (silent.symm.trans ha) nofun⟩
  | heldOff runs =>
    unfold holdOffOver
    dsimp only
    have bare : ({ s.ctl with holdOff := none } : Controller).Within := h.ctl.of_table rfl rfl rfl rfl
    split
    · rename_i excess
      split
      · refine ⟨bare.setOwn (Entry.within_of_waiting (h.ctl.entries s.ctl.id) ?_ (.inr rfl)), le_rfl, h.sends⟩
        exact excess.le.trans (Controller.own_held_le h.ctl)
      · exact ⟨h.ctl.of_table rfl rfl rfl rfl, le_rfl, h.sends⟩
    · exact ⟨bare, le_rfl, h.sends⟩
  | lapsed runs => exact ⟨h.ctl.of_table rfl rfl rfl rfl, le_rfl, h.sends⟩
  | inService hs =>
    have on : ({ s.ctl with
        station := .inService, window := none, transmit := { s.ctl.transmit with hello := false } } : Controller).Within :=
      h.ctl.of_bus rfl rfl (by simp [hs]) ⟨nofun, nofun⟩ h.ctl.entries
    have budget := Controller.budget_of_settings (d := Controller.tendEvicts { s.ctl with
        station := .inService, window := none, transmit := { s.ctl.transmit with hello := false } }) (c := s.ctl) (by simp)
    refine ⟨on.tendEvicts, budget.ge, ?_⟩
    rw [budget, Controller.tendEvicts_id]
    exact h.sends

theorem Ordered.of_coherent (h : s.coherent = true) (live : s.heldInReset = false) : s.Ordered :=
  have orderly := Orderly.of_coherent h live
  ⟨orderly.table, fun b => (orderly.bank b).front⟩

theorem draw_of_kept (h : ∀ b, (s.bank b).Kept (t.bank b)) : t.draw = s.draw :=
  draw_congr fun b => Bank.runningReservation_of_power (h b).power

theorem draw_of_eases (h : ∀ b, (s.bank b).Eases (x.bank b)) : x.draw ≤ s.draw :=
  Nat.add_le_add (h .zero).runningReservation_le (h .one).runningReservation_le

/-- The state in which a settled change stands before it settles. -/
theorem settled_ordered (live : s.heldInReset = false) (coherent : s.coherent = true) (table : s.Table → x.Table)
    (eases : s.Orderly → ∀ b, (s.bank b).Eases (x.bank b)) : x.Ordered ∧ ∀ b, (s.bank b).Eases (x.bank b) :=
  have orderly := Orderly.of_coherent coherent live
  ⟨⟨table orderly.table, fun b => (eases orderly b).front⟩, eases orderly⟩

theorem Within.of_like (h : s.Within) (like : t.Like s) : t.Within where
  ctl := like.ctl ▸ h.ctl
  sends := by
    rw [like.ctl, like.port]
    exact h.sends
  draw := by
    rw [draw_congr fun b => congrArg Bank.runningReservation (like.bank b), like.ctl]
    exact h.draw

/-- In reset no bit is read (R178). -/
theorem readBits_reset (reset : s.heldInReset = true) (bits : List Bool) : s.readBits bits = s :=
  readBits_induct (Inv := fun x => x = s) (fun x b hx => by rw [hx, readBit_reset reset]) rfl bits

/-- What each bit keeps in good order, a row of them keeps. -/
theorem readBits_keep {P : State → Prop} (coherent : s.coherent = true)
    (bit : ∀ x : State, ∀ b, x.Ordered → P x → P (x.readBit b)) (h : P s) (bits : List Bool) : P (s.readBits bits) := by
  cases reset : s.heldInReset with
  | true => exact (readBits_reset reset bits).symm ▸ h
  | false =>
    exact (readBits_induct (Inv := fun x => x.Ordered ∧ P x)
      (fun x b hx => ⟨readBit_ordered hx.1 b, bit x b hx.1 hx.2⟩) ⟨.of_coherent coherent reset, h⟩ bits).2

theorem Course.within (course : s.Course t) (h : s.Within) (quiet : s.quiet = true) (coherent : s.coherent = true) :
    t.Within := by
  obtain ⟨ctl, port⟩ := quiet_iff.1 quiet
  cases course with
  | kept hc hp _ banks =>
    refine ⟨hc ▸ h.ctl, ?_, ?_⟩
    · rw [hc, hp]
      exact h.sends
    · rw [draw_of_kept banks, hc]
      exact h.draw
  | tended _ change _ banks =>
    obtain ⟨within, budget, sends⟩ := change.within h ctl
    exact ⟨within, sends, by rw [draw_of_kept banks, budget]; exact h.draw⟩
  | @settled x _ live change hp reset table eases like =>
    obtain ⟨within, budget, sends⟩ := change.within h port
    obtain ⟨ordered, eased⟩ := settled_ordered live coherent table eases
    have before : x.Within := ⟨within, by rw [hp]; exact sends, (draw_of_eases eased).trans (h.draw.trans budget)⟩
    exact (settle_within before ordered).of_like like
  | cut hc hp _ banks =>
    refine ⟨hc ▸ h.ctl, ?_, by rw [draw_of_kept banks, hc]; exact h.draw⟩
    rw [hp]
    exact nofun
  | fresh straps nonce hselLow =>
    refine ⟨⟨rfl, fun k => ?_⟩, nofun, le_rfl⟩
    exact clearedTable_entry k ▸ clearedEntry_within _

end State

/-- Settles O56: each way that a step's result comes about leaves the parts of the invariant, and what settles begins no more than
the own holding. -/
theorem everyStepKeepsTheTableWithinBudget : Obligations.EveryStepKeepsTheTableWithinBudget := by
  intro s t within quiet coherent ht
  refine State.withinBudget_iff.2 ?_
  have within := State.withinBudget_iff.1 within
  obtain ⟨pending, wire, course | ⟨bits, rfl⟩⟩ := State.Course.of_step ht
  · exact course.within ⟨within.ctl, within.sends, within.draw⟩ quiet coherent
  · exact State.readBits_keep (s := { s with pending := pending, wire := wire }) (P := State.Within) coherent (fun _ b ordered hx => State.readBit_within hx ordered b)
      ⟨within.ctl, within.sends, within.draw⟩ bits

end Sys2Proof.Machine

/-! # Every step keeps what runs admitted, or under a pause order

A change that settles leaves each running host operation admitted or ordered to pause. Where nothing settles, the gate judges a
running bank as before: a RELEASE that an attempt takes from the set carries the need, and what runs is never more. -/

namespace Sys2Proof.Machine

/-! ### The need (R85 to R87, R92) -/

theorem Slot.reservation_le (sl : Slot) : sl.reservation ≤ 6 := by
  unfold Slot.reservation
  split
  · split <;> decide
  all_goals decide

theorem InternalOp.reservation_le (op : InternalOp) : op.reservation ≤ 6 := by
  cases op <;> simp [InternalOp.reservation]

theorem Bank.reservation_le (bk : Bank) : bk.reservation ≤ 6 := by
  unfold Bank.reservation
  split
  · exact InternalOp.reservation_le _
  · split
    · exact Nat.zero_le _
    · rename_i sl behind _
      split
      case h_5 => split <;> exact Slot.reservation_le _
      all_goals first | exact Slot.reservation_le sl | exact Nat.zero_le _

theorem Bank.runningReservation_le (bk : Bank) : bk.runningReservation ≤ bk.reservation := by
  unfold Bank.runningReservation
  split
  · exact le_rfl
  · exact Nat.zero_le _

namespace State

variable {s t x : State} {b : BankId}

theorem draw_le_need (s : State) : s.draw ≤ s.need :=
  Nat.add_le_add s.bank0.runningReservation_le s.bank1.runningReservation_le

/-- The need fits the byte of a RELEASE. -/
theorem need_lt (s : State) : s.need < 256 := by
  have := s.bank0.reservation_le
  have := s.bank1.reservation_le
  unfold need
  omega

/-! ### The invariant's parts -/

/-- Each running host operation is admitted or has its pause order, and in SOLO what runs is within H and H within B. -/
structure Drawn (s : State) : Prop where
  order : ∀ b, (s.bank b).hostRunning = true → s.gateAdmits b = true ∨ (s.bank b).pauseOrder = true
  solo : s.ctl.station = .solo → s.draw ≤ s.holding ∧ s.holding ≤ s.ctl.budget

theorem drawsWithin_iff : s.drawsWithin = true ↔ s.heldInReset = true ∨ s.Drawn := by
  have bank (b : BankId) : (!(s.bank b).hostRunning || s.gateAdmits b || (s.bank b).pauseOrder) = true ↔
      ((s.bank b).hostRunning = true → s.gateAdmits b = true ∨ (s.bank b).pauseOrder = true) := by
    cases (s.bank b).hostRunning <;> simp
  have solo : (decide (s.ctl.station ≠ .solo) ||
      (decide (s.bank0.runningReservation + s.bank1.runningReservation ≤ s.holding) &&
        decide (s.holding ≤ s.ctl.budget))) = true ↔
      (s.ctl.station = .solo → s.draw ≤ s.holding ∧ s.holding ≤ s.ctl.budget) := by
    by_cases h : s.ctl.station = .solo <;> simp [h, draw]
  have parts : s.drawsWithin = (s.heldInReset ||
      ((!(s.bank .zero).hostRunning || s.gateAdmits .zero || (s.bank .zero).pauseOrder) &&
        (!(s.bank .one).hostRunning || s.gateAdmits .one || (s.bank .one).pauseOrder) &&
        (decide (s.ctl.station ≠ .solo) ||
          (decide (s.bank0.runningReservation + s.bank1.runningReservation ≤ s.holding) &&
            decide (s.holding ≤ s.ctl.budget))))) := rfl
  rw [parts, Bool.or_eq_true, Bool.and_eq_true, Bool.and_eq_true, bank, bank, solo]
  refine or_congr_right ⟨fun ⟨⟨h0, h1⟩, h2⟩ => ⟨fun b => by cases b; exacts [h0, h1], h2⟩,
    fun h => ⟨⟨h.order .zero, h.order .one⟩, h.solo⟩⟩

/-- Where the gate judges what runs as before, what was admitted or ordered to pause is so. -/
theorem Drawn.of_kept (h : s.Drawn) (banks : ∀ b, (s.bank b).Kept (t.bank b))
    (gate : ∀ b, (s.bank b).hostRunning = true → s.gateAdmits b = true → t.gateAdmits b = true)
    (solo : t.ctl.station = .solo → s.ctl.station = .solo ∧ t.holding = s.holding ∧ t.ctl.budget = s.ctl.budget) :
    t.Drawn where
  order b run := by
    have before : (s.bank b).hostRunning = true := (Bank.hostRunning_of_power (banks b).power).symm.trans run
    exact (h.order b before).imp (gate b before) ((banks b).order.trans ·)
  solo st := by
    obtain ⟨before, holding, budget⟩ := solo st
    rw [draw_of_kept banks, holding, budget]
    exact h.solo before

/-- Nothing that the gate judges by has changed. -/
theorem Drawn.of_same (h : s.Drawn) (banks : ∀ b, (s.bank b).Kept (t.bank b)) (station : t.ctl.station = s.ctl.station)
    (lapsed : t.ctl.lapsed = s.ctl.lapsed) (holding : t.holding = s.holding) (budget : t.ctl.budget = s.ctl.budget)
    (sending : t.port.sending = s.port.sending) : t.Drawn := by
  have admissible : t.admissible = s.admissible := by simp only [State.admissible, sending, holding]
  refine h.of_kept banks (fun b _ gate => ?_) fun st => ⟨station.symm.trans st, holding, budget⟩
  rw [gateAdmits_congr (mayDraw_congr station lapsed) admissible fun k => (banks k).power]
  exact gate

/-- Once a change is settled, what runs is admitted or has its pause order. -/
theorem settle_drawn (ordered : x.Ordered) (within : x.Within) (solo : x.ctl.station = .solo → x.draw ≤ x.holding) :
    x.settle.Drawn := by
  obtain ⟨-, admits⟩ := settle_admits ordered
  refine ⟨settle_ordered x, fun st => ⟨?_, Controller.own_held_le (settle_within within ordered).ctl⟩⟩
  rcases admits.draw with fits | same
  · exact fits.2.trans (admissible_le_holding _)
  · exact same.le.trans ((solo (admits.station.symm.trans st)).trans admits.holding)

theorem Drawn.of_like (h : s.Drawn) (like : t.Like s) : t.Drawn := by
  refine h.of_same (fun b => ?_) (by rw [like.ctl]) (by rw [like.ctl]) ?_ (by rw [like.ctl]) (by rw [like.port])
  · exact like.bank b ▸ .refl _
  · rw [holding, holding, like.ctl]

/-! ### Bits -/

theorem frameEnded_station_ne_solo (on : s.ctl.station.onBus = true) (l : Line) : (s.frameEnded l).ctl.station ≠ .solo := by
  have station : (s.frameRead l).ctl.station = s.ctl.station := s.applyVerdict_station _
  unfold frameEnded leaveBus
  split
  · rename_i f hf
    have fault : f = .idConflict ∨ f = .configMismatch ∨ f = .txFault ∨ f = .rxFault := by
      split at hf
      · cases hf
      · exact Port.faultAfter_cases hf
    show f ≠ _
    rcases fault with rfl | rfl | rfl | rfl <;> exact nofun
  · split
    · exact nofun
    · rw [station]
      exact (StationState.ne_of_onBus on).2

theorem readBit_drawn (h : s.Drawn) (within : s.Within) (ordered : s.Ordered) (r : Bool) : (s.readBit r).Drawn := by
  have port {p : Port} (sending : p.sending = s.port.sending) : ({ s with port := p } : State).Drawn :=
    h.of_same (fun b => by cases b <;> exact .refl _) rfl rfl rfl rfl sending
  rcases s.readBit_cases r with same | ⟨-, same⟩ | ⟨on, -, same | same⟩ | ⟨heard, on, -, ⟨-, same⟩ | ⟨-, same⟩⟩ <;> rw [same]
  · exact h
  · exact port (Port.outBit_sending _ r)
  · exact port (freeBit_sending _ r)
  · exact settle_drawn (ordered.withPort _) (within.withPort (.inl rfl)) fun st =>
      absurd st (StationState.ne_of_onBus on).2
  · exact port ((Port.countDominant_sending _ _).trans (slotsAfter_sending s _))
  · have counted := within.withPort (.inr (Port.countDominant_sending s.port (s.readLevel heard r)))
    rw [endFrame_eq]
    exact settle_drawn (frameEnded_ordered (ordered.withPort _) _) (frameEnded_within counted on _) fun st =>
      absurd st (frameEnded_station_ne_solo (s := { s with port := s.port.countDominant _ }) on _)

/-! ### Changes with which nothing settles -/

/-- An idle station runs nothing (R153). -/
theorem hostRunning_of_idle (idle : s.idle = true) (b : BankId) : (s.bank b).hostRunning = false := by
  simp only [State.idle, Bool.and_eq_true, List.isEmpty_iff, Option.isNone_iff_eq_none] at idle
  obtain ⟨⟨⟨q0, q1⟩, i0⟩, i1⟩ := idle
  have none {bk : Bank} (hi : bk.internal = .none) (hq : bk.queue = []) : bk.hostRunning = false := by
    simp [Bank.hostRunning, Bank.isRunning, hi, hq]
  cases b
  exacts [none i0 q0, none i1 q1]

/-- What runs is within the need, which a RELEASE carries (R88, R92). -/
theorem gateAdmits_of_release (gate : s.gateAdmits b = true) (run : (s.bank b).isRunning = true)
    {c : Controller} {p : Port} (mayDraw : c.mayDraw = s.ctl.mayDraw)
    (own : c.own = s.ctl.own) (released : ∀ total l, p.sending = some ⟨.release total, l⟩ → s.need ≤ total.toNat) :
    ({ s with ctl := c, port := p } : State).gateAdmits b = true := by
  have fits := (gateAdmits_iff_fits run).1 gate
  have holding : s.draw ≤ s.holding := fits.2.trans s.admissible_le_holding
  have run' : (({ s with ctl := c, port := p } : State).bank b).isRunning = true := by cases b <;> exact run
  refine (gateAdmits_iff_fits run').2 ⟨mayDraw.trans fits.1, ?_⟩
  have same : ({ s with ctl := c, port := p } : State).holding = s.holding := congrArg Entry.held own
  show s.draw ≤ _
  unfold admissible
  split
  · rename_i total l hp
    rw [same]
    exact le_min holding (s.draw_le_need.trans (released total l hp))
  · rw [same]
    exact holding

theorem chosen_release {total : BitVec 8} (chosen : s.chosen = some (.release total)) (inService : s.ctl.station ≠ .leaving) :
    s.need ≤ total.toNat := by
  have offered : Payload.release total ∈ s.offers s.pruned := List.mem_of_find?_eq_some chosen
  simp only [offers, List.mem_append, List.mem_ite_nil_right, List.mem_singleton, List.mem_map] at offered
  rcases offered with ⟨-, same⟩ | ⟨-, same⟩ | ⟨k, -, same⟩ | ⟨-, same⟩ | ⟨-, same⟩ | ⟨-, same⟩
  · obtain rfl : total = BitVec.ofNat 8 s.releaseTotal := by injection same
    have need : s.releaseTotal = s.need := by
      unfold releaseTotal
      split
      · contradiction
      · rfl
    rw [need, BitVec.toNat_ofNat, Nat.mod_eq_of_lt s.need_lt]
  all_goals simp [Entry.renewPayload, TransmitSet.evictPayload] at same

theorem mayDraw_leaving {c : Controller} (h : c.station = .leaving) : c.mayDraw = false := by simp [Controller.mayDraw, h]

/-- The start of an attempt leaves what runs admitted. -/
theorem startAttempt_gate (s : State) (run : (s.bank b).isRunning = true) (gate : s.gateAdmits b = true) :
    s.startAttempt.gateAdmits b = true := by
  rcases s.startAttempt_cases with same | ⟨-, silent, same | ⟨p, chosen, same⟩⟩ <;> rw [same]
  · exact gate
  · exact gateAdmits_of_release gate run (c := { s.ctl with transmit := s.pruned }) (p := s.port) rfl rfl
      fun _ _ hp => absurd (silent.symm.trans hp) nofun
  · refine gateAdmits_of_release gate run rfl rfl fun total l hp => ?_
    obtain rfl : p = .release total := congrArg Attempt.payload (Option.some.inj hp)
    refine chosen_release chosen fun leaving => ?_
    simp [gateAdmits, mayDraw_leaving leaving] at gate

theorem startAttempt_ctl (s : State) : s.startAttempt.ctl.station = s.ctl.station ∧ s.startAttempt.holding = s.holding ∧
    s.startAttempt.ctl.budget = s.ctl.budget ∧ s.startAttempt.bank0 = s.bank0 ∧ s.startAttempt.bank1 = s.bank1 := by
  rcases s.startAttempt_cases with same | ⟨-, -, same | ⟨p, -, same⟩⟩ <;> rw [same] <;> exact ⟨rfl, rfl, rfl, rfl, rfl⟩

theorem gateAdmits_of_like {c : Controller} {p : Port} (ctl : t.ctl = c) (port : t.port = p)
    (banks : ∀ b, (s.bank b).Kept (t.bank b)) : t.gateAdmits b = ({ s with ctl := c, port := p } : State).gateAdmits b := by
  refine gateAdmits_congr (by rw [ctl]) (by simp only [admissible, holding, ctl, port]) fun k => ?_
  cases k <;> exact (banks _).power

/-- The station's holding stands with its entry. -/
theorem holding_congr (own : t.ctl.own.held = s.ctl.own.held) : t.holding = s.holding := own

theorem ageOut_own_held (c : Controller) (k : StationId) : (c.ageOut k).own.held = c.own.held := by
  unfold Controller.ageOut Controller.own
  rw [Controller.tendEvicts_table, Controller.tendEvicts_id]
  by_cases same : c.id = k
  · subst same
    exact (congrArg Entry.held (PerStation.entry_put c.table c.id _)).trans rfl
  · exact congrArg Entry.held (PerStation.entry_put_other _ same _)

/-- Without settling, the gate judges what runs as it did. -/
theorem Tended.drawn (change : s.Tended t.ctl t.port) (banks : ∀ b, (s.bank b).Kept (t.bank b)) (h : s.Drawn) :
    t.Drawn := by
  generalize hc : t.ctl = c at change
  generalize hp : t.port = p at change
  have resting (none : ∀ b, (s.bank b).hostRunning = true → s.gateAdmits b = false)
      (station : c.station ≠ .solo) : t.Drawn :=
    h.of_kept banks (fun b run gate => by simp [none b run] at gate) fun st => absurd (hc ▸ st) station
  have same (station : c.station = s.ctl.station) (lapsed : c.lapsed = s.ctl.lapsed) (held : c.own.held = s.ctl.own.held)
      (settings : c.settings = s.ctl.settings) (sending : p = s.port) : t.Drawn :=
    h.of_same banks (hc ▸ station) (hc ▸ lapsed) (by rw [holding, hc]; exact held)
      (Controller.budget_of_settings (hc ▸ settings)) (by rw [hp, sending])
  cases change with
  | read => exact same rfl rfl rfl rfl rfl
  | joined may =>
    refine resting (fun b _ => ?_) nofun
    have closed : s.ctl.mayDraw = false := by
      revert may
      unfold Controller.mayDraw
      cases s.ctl.station <;> simp [StationState.mayJoin]
    simp [gateAdmits, closed]
  | gone _ idle => exact resting (fun b run => absurd run (by simp [hostRunning_of_idle idle b])) nofun
  | leaving _ idle =>
    exact resting (fun b run => absurd run (by simp [hostRunning_of_idle idle b])) (by simp [startLeaving])
  | renewing => exact same rfl rfl rfl rfl rfl
  | silent k =>
    exact same (by simp [Controller.ageOut]) (by simp [Controller.ageOut]) (ageOut_own_held _ k)
      (by simp [Controller.ageOut]) rfl
  | older => exact same rfl rfl (by simp [Controller.tick, Controller.own, PerStation.entry]) rfl rfl
  | attempting =>
    obtain ⟨station, held, budget, bank0, bank1⟩ := s.startAttempt_ctl
    refine h.of_kept banks (fun b run gate => ?_) fun st => ⟨?_, ?_, ?_⟩
    · have started := s.startAttempt_gate (Bank.isRunning_of_hostRunning run) gate
      rw [gateAdmits_of_like hc hp banks, ← started]
      refine gateAdmits_congr rfl rfl fun k => ?_
      cases k
      exacts [congrArg Bank.power bank0.symm, congrArg Bank.power bank1.symm]
    · exact station.symm.trans (hc ▸ st)
    · rw [holding, hc]
      exact held
    · rw [hc]
      exact budget

/-! ### Changes that settle -/

/-- In SOLO what runs is within the holding before a change settles (R100, R145). -/
theorem Turned.solo {c : Controller} (change : s.Turned c) (hc : x.ctl = c) (h : s.Drawn) (within : s.Within)
    (draw : x.draw ≤ s.draw) (st : x.ctl.station = .solo) : x.draw ≤ x.holding := by
  have same (station : c.station = s.ctl.station) (held : c.own.held = s.ctl.own.held) : x.draw ≤ x.holding := by
    have solo : s.ctl.station = .solo := station.symm.trans (hc ▸ st)
    refine draw.trans ((h.solo solo).1.trans ?_)
    rw [holding, holding, hc, held]
  cases change with
  | same => exact same rfl rfl
  | configured hs =>
    have none := within.ctl.budget_unconfigured hs
    exact (draw.trans (none ▸ within.draw)).trans (Nat.zero_le _)
  | heldOff =>
    rw [holding, hc]
    unfold holdOffOver
    dsimp only
    split
    · split
      · rw [Controller.setOwn_own]
        exact draw.trans s.draw_le_need
      · rename_i other
        have st : s.ctl.station = .solo := by
          rw [hc] at st
          unfold holdOffOver at st
          dsimp only at st
          (repeat' split at st) <;> exact st
        exact absurd st other
    · have st : s.ctl.station = .solo := by
        rw [hc] at st
        unfold holdOffOver at st
        dsimp only at st
        (repeat' split at st) <;> exact st
      exact draw.trans (h.solo st).1
  | lapsed runs =>
    have st : s.ctl.station = .solo := (congrArg Controller.station hc).symm.trans st
    simp [Controller.leaseRuns, st, StationState.keepsLease] at runs
  | inService =>
    rw [hc, Controller.tendEvicts_station] at st
    cases st

theorem Course.drawn (course : s.Course t) (h : s.heldInReset = true ∨ s.Drawn) (within : s.Within)
    (quiet : s.quiet = true) (coherent : s.coherent = true) : t.heldInReset = true ∨ t.Drawn := by
  obtain ⟨ctl, port⟩ := quiet_iff.1 quiet
  have drawn (live : s.heldInReset = false) : s.Drawn := h.resolve_left (by simp [live])
  cases course with
  | kept hc hp reset banks =>
    refine h.imp reset.trans fun h => h.of_same banks (by rw [hc]) (by rw [hc]) ?_ (by rw [hc]) (by rw [hp])
    rw [holding, holding, hc]
  | tended live change _ banks => exact .inr (change.drawn banks (drawn live))
  | @settled x _ live change hp reset table eases like =>
    obtain ⟨ordered, eased⟩ := settled_ordered live coherent table eases
    have draw := draw_of_eases eased
    obtain ⟨within', budget, sends⟩ := change.within within port
    have before : x.Within := ⟨within', by rw [hp]; exact sends, draw.trans (within.draw.trans budget)⟩
    exact .inr ((settle_drawn ordered before (change.solo rfl (drawn live) within draw)).of_like like)
  | cut _ _ reset => exact .inl reset
  | fresh straps nonce hselLow =>
    refine .inr ⟨fun b run => ?_, nofun⟩
    cases b <;> simp [afterReset, Bank.afterReset, Bank.hostRunning, State.bank] at run

end State

/-- Settles O59: what settles leaves what runs admitted or ordered to pause, and without settling the gate judges it as before. -/
theorem everyStepKeepsTheDrawWithinBudget : Obligations.EveryStepKeepsTheDrawWithinBudget := by
  intro s t coherent within quiet draws ht
  refine State.drawsWithin_iff.2 ?_
  have within := State.withinBudget_iff.1 within
  have drawn := State.drawsWithin_iff.1 draws
  obtain ⟨pending, wire, moves⟩ := State.Course.of_step ht
  generalize hs : ({ s with pending := pending, wire := wire } : State) = s' at moves
  have within' : s'.Within := hs ▸ ⟨within.ctl, within.sends, within.draw⟩
  have drawn' : s'.heldInReset = true ∨ s'.Drawn := by
    subst hs
    exact drawn.imp id fun h => h.of_same (fun b => by cases b <;> exact .refl _) rfl rfl rfl rfl rfl
  have coherent' : s'.coherent = true := hs ▸ coherent
  rcases moves with course | ⟨bits, rfl⟩
  · exact course.drawn drawn' within' (hs ▸ quiet) coherent'
  · refine (State.readBits_keep (P := fun x => (x.heldInReset = true ∨ x.Drawn) ∧ x.Within) coherent'
      (fun x b ordered hx => ?_) ⟨drawn', within'⟩ bits).1
    obtain ⟨drawn, within⟩ := hx
    cases reset : x.heldInReset with
    | true => exact (State.readBit_reset reset b).symm ▸ ⟨.inl reset, within⟩
    | false =>
      have live : x.Drawn := drawn.resolve_left (by simp [reset])
      exact ⟨.inr (State.readBit_drawn live within ordered b), State.readBit_within within ordered b⟩

end Sys2Proof.Machine

/-! # No pulse begins beyond the budget

Where a command made a bank's operation run, or ended a step of it and let it go on, what runs is afterwards within what the gate
may let run. A row of bits of one level lets a bank begin at most where a frame ends or a lost attempt is settled; the port is then out
of frame, and no bit of that level takes it into a frame again. -/

namespace Sys2Proof.Machine.State

variable {s t x : State} {b : BankId}

/-- The gate admits a bank that a settled change made run. -/
theorem settle_gate (ordered : x.Ordered) (rests : (x.bank b).isRunning = false) (run : (x.settle.bank b).isRunning = true) :
    x.settle.gateAdmits b = true :=
  (gateAdmits_iff_fits run).2 (((settle_admits ordered).2.begins b run).resolve_left (by simp [rests]))

/-- A host operation that a settled change made run was not under way before. -/
theorem settle_gate_of_eased (ordered : x.Ordered) (eased : (s.bank b).Eases (x.bank b))
    (before : (s.bank b).hostRunning = false) (run : (x.settle.bank b).hostRunning = true) :
    x.settle.gateAdmits b = true := by
  obtain ⟨-, admits⟩ := settle_admits ordered
  cases runs : (x.bank b).isRunning with
  | false => exact settle_gate ordered runs (Bank.isRunning_of_hostRunning run)
  | true =>
    have same := (admits.stays b runs).trans (eased.power_of_runs runs)
    rw [Bank.hostRunning_of_power same, before] at run
    cases run

theorem gateAdmits_of_same (like : t.Like s) : t.gateAdmits b = s.gateAdmits b :=
  gateAdmits_congr (by rw [like.ctl]) (by simp only [admissible, holding, like.ctl, like.port]) fun k => by rw [like.bank]

/-! ### The ends of steps (R96) -/

/-- A step that ended: the verify of a pulse is under way, or the gate admits what goes on. -/
theorem StepEnds.gate (ends : s.StepEnds b t) (h : s.Drawn) (orderly : s.Orderly) (run : (t.bank b).hostRunning = true)
    (goesOn : (t.bank b).verifying = false ∨ (s.bank b).hostRunning = false) : t.gateAdmits b = true := by
  cases ends with
  | pulse use =>
    rw [setBank_bank] at run goesOn
    have same : ((s.bank b).pulseEnded use).hostRunning = (s.bank b).hostRunning := rfl
    rcases goesOn with verifying | rests
    · cases verifying
    · rw [same, rests] at run
      cases run
  | @concludes v live accounts ends =>
    have ends := ends (orderly.bank b)
    have eased := eases_withTurn orderly ends.toEases
    have like := noteMap_like (s.withTurn b v) b (s.bank b).mapState
    have table : ((s.withTurn b v).noteMap b (s.bank b).mapState).Table :=
      ((KeepsTable.withTurn accounts).trans (KeepsTable.noteMap _ _ _)).table orderly.table
    unfold conclude at run ⊢
    generalize (s.withTurn b v).noteMap b (s.bank b).mapState = x at like table run ⊢
    have eased (k : BankId) : (s.bank k).Eases (x.bank k) := like.bank k ▸ eased k
    have ordered : x.Ordered := ⟨table, fun k => (eased k).front⟩
    cases before : (s.bank b).hostRunning with
    | false => exact settle_gate_of_eased ordered (eased b) before run
    | true =>
      obtain ⟨-, admits⟩ := settle_admits ordered
      cases runs : (x.bank b).isRunning with
      | false => exact settle_gate ordered runs (Bank.isRunning_of_hostRunning run)
      | true =>
        have goes : v.bank.hostRunning = true := by
          have same := like.bank b
          rw [withTurn_bank] at same
          rw [← same, Bank.hostRunning_of_power ((eased b).power_of_runs runs), before]
        have admitted : s.gateAdmits b = true := (h.order b before).elim id (ends.order goes)
        have fits : s.Fits := (gateAdmits_iff_fits (Bank.isRunning_of_hostRunning before)).1 admitted
        have ctl : x.ctl = s.ctl := like.ctl.trans (s.withTurn_ctl b v)
        have port : x.port = s.port := like.port.trans (s.withTurn_port b v)
        have fits' : x.Fits :=
          ⟨by rw [ctl]; exact fits.1, (draw_of_eases eased).trans
            (fits.2.trans (by simp only [admissible, holding, ctl, port]; exact le_rfl))⟩
        exact (gateAdmits_iff_fits (Bank.isRunning_of_hostRunning run)).2 (admits.fits fits')

/-! ### Bits of one level -/

/-- The bank's operation does not run; or the port is out of frame where no bit of that level starts a frame, and the gate admits
the bank if it runs. -/
def Begun (b : BankId) (level : Bool) (x : State) : Prop :=
  (x.bank b).hostRunning = false ∨
    (x.port.framing = .outOfFrame ∧ (level = true ∨ x.port.recessiveCount < idleBits) ∧
      ((x.bank b).hostRunning = true → x.gateAdmits b = true))

/-- A bank that ran nothing before a change settles. -/
theorem begun_of_settled (ordered : x.Ordered) (rests : (x.bank b).hostRunning = false) {level : Bool}
    (out : x.port.framing = .outOfFrame) (quiet : level = true ∨ x.port.recessiveCount < idleBits) :
    Begun b level x.settle :=
  .inr ⟨by rw [settle_port]; exact out, by rw [settle_port]; exact quiet, fun run =>
    settle_gate_of_eased (s := x) ordered ((Bank.Kept.refl _).eases (ordered.front b)) rests run⟩

theorem frameEnded_port (s : State) (l : Line) : (s.frameEnded l).port.framing = .outOfFrame ∧
    (s.frameEnded l).port.recessiveCount < idleBits := by
  have read : (s.frameRead l).port.framing = .outOfFrame ∧ (s.frameRead l).port.recessiveCount < idleBits := by
    have counted (p : Port) (v : Verdict) : (p.countRuns v).framing = p.framing ∧
        (p.countRuns v).recessiveCount = p.recessiveCount := by
      unfold Port.countRuns
      split <;> exact ⟨rfl, rfl⟩
    unfold frameRead
    dsimp only
    split
    · exact ⟨rfl, lineClosingRecessive_lt l⟩
    · obtain ⟨framing, count⟩ := counted ((s.applyVerdict (s.verdict l)).port.frameOver l) (s.verdict l)
      exact ⟨framing, count.trans_lt (lineClosingRecessive_lt l)⟩
  unfold frameEnded leaveBus
  (repeat' split)
  · exact ⟨rfl, read.2⟩
  · exact ⟨rfl, read.2⟩
  · exact read

theorem frameEnded_bank (s : State) (l : Line) (b : BankId) : (s.frameEnded l).bank b = s.bank b := by
  obtain ⟨a0, a1, -, -⟩ := s.applyVerdict_banks (s.verdict l)
  obtain ⟨b0, b1, -, -⟩ := (s.frameRead l).leaveBus_banks (s.verdict l) (lineBroken l)
  cases b
  exacts [b0.trans a0, b1.trans a1]

theorem outBit_quiet {p : Port} {level : Bool} (out : p.framing = .outOfFrame) :
    (p.outBit level).framing = .outOfFrame ∧ (level = true ∨ (p.outBit level).recessiveCount < idleBits) := by
  refine ⟨(Port.outBit_framing p level).trans out, ?_⟩
  cases level with
  | true => exact .inl rfl
  | false =>
    have zero : (p.outBit false).recessiveCount = 0 := by simp [Port.outBit, Port.countRecessive]
    exact .inr (zero ▸ (by decide : 0 < idleBits))

/-- A bit that starts no frame leaves the port out of frame. -/
theorem freeBit_quiet {p : Port} {level : Bool} (out : p.framing = .outOfFrame)
    (quiet : level = true ∨ p.recessiveCount < idleBits) :
    (p.freeBit level).framing = .outOfFrame ∧ (level = true ∨ (p.freeBit level).recessiveCount < idleBits) := by
  have free : p.freeBit level = p.outBit level := by
    unfold Port.freeBit
    refine if_neg fun starts => ?_
    simp only [Bool.and_eq_true, Bool.not_eq_true', Port.idle, decide_eq_true_eq] at starts
    rcases quiet with h | h
    · simp [h] at starts
    · exact absurd starts.2.2 (Nat.not_le_of_lt h)
  rw [free]
  exact outBit_quiet out

/-- An attempt that is over bounds the gate no longer (R88, R139). -/
theorem fits_of_silenced (fits : s.Fits) (p : Port) (silent : p.sending = none) : ({ s with port := p } : State).Fits := by
  refine ⟨fits.1, fits.2.trans (s.admissible_le_holding.trans ?_)⟩
  simp only [admissible, silent]
  exact le_rfl

/-- A lost attempt is settled with a recessive bit out of frame (R125, R139). -/
theorem readBit_free_cases (live : x.heldInReset = false) (on : x.ctl.station.onBus = true)
    (out : x.port.framing = .outOfFrame) (level : Bool) : x.readBit level = { x with port := x.port.freeBit level } ∨
      (level = true ∧ (x.port.freeBit level).framing = .outOfFrame ∧
        x.readBit level = State.settle { x with port := { x.port.freeBit level with sending := none } }) := by
  rw [readBit_free live on out]
  unfold freeBit
  dsimp only
  split
  · rename_i settles
    simp only [Port.idle, Bool.and_eq_true, decide_eq_true_eq] at settles
    obtain ⟨-, framing, idle⟩ := settles
    refine .inr ⟨?_, framing, rfl⟩
    cases level with
    | true => rfl
    | false =>
      have count : (x.port.freeBit false).recessiveCount = 0 := by
        unfold Port.freeBit
        split
        · rfl
        · simp [Port.outBit, Port.countRecessive]
      exact absurd idle (by rw [count]; decide)
  · exact .inl rfl

/-- One bit of the level keeps a bank that began admitted. -/
theorem readBit_begun (ordered : x.Ordered) {level : Bool} (h : Begun b level x) : Begun b level (x.readBit level) := by
  have port (p : Port) : (({ x with port := p } : State).bank b) = x.bank b := by cases b <;> rfl
  have moved {p : Port} (sending : p.sending = x.port.sending)
      (quiet : x.port.framing = .outOfFrame → (level = true ∨ x.port.recessiveCount < idleBits) →
        p.framing = .outOfFrame ∧ (level = true ∨ p.recessiveCount < idleBits)) :
      Begun b level { x with port := p } := by
    rcases h with rests | ⟨out, few, gate⟩
    · exact .inl (by rw [port]; exact rests)
    · obtain ⟨out, few⟩ := quiet out few
      refine .inr ⟨out, few, fun run => ?_⟩
      have same : ({ x with port := p } : State).gateAdmits b = x.gateAdmits b :=
        gateAdmits_congr rfl (by simp only [admissible, holding, sending]) fun k => by cases k <;> rfl
      rw [same]
      exact gate (by rw [port] at run; exact run)
  cases reset : x.heldInReset with
  | true => exact (readBit_reset reset level).symm ▸ h
  | false =>
  rcases x.readBit_cases level with same | ⟨-, same⟩ | ⟨on, out, -⟩ | ⟨heard, -, framed, ⟨-, same⟩ | ⟨-, same⟩⟩
  · exact same.symm ▸ h
  · exact same ▸ moved (Port.outBit_sending _ level) fun out _ => outBit_quiet out
  · rcases readBit_free_cases reset on out level with same | ⟨rfl, out', same⟩ <;> rw [same]
    · exact moved (freeBit_sending _ level) freeBit_quiet
    · have ordered := ordered.withPort { x.port.freeBit true with sending := none }
      cases run : (x.bank b).hostRunning with
      | false => exact begun_of_settled ordered (by rw [port]; exact run) out' (.inl rfl)
      | true =>
        obtain ⟨-, -, gate⟩ := h.resolve_left (by simp [run])
        have fits := (gateAdmits_iff_fits (Bank.isRunning_of_hostRunning run)).1 (gate run)
        refine .inr ⟨by rw [settle_port]; exact out', .inl rfl, fun run => ?_⟩
        exact (gateAdmits_iff_fits (Bank.isRunning_of_hostRunning run)).2
          ((settle_admits ordered).2.fits (fits_of_silenced fits _ rfl))
  · rw [same]
    rcases h with rests | ⟨out, -, -⟩
    · exact .inl (by rw [port]; exact rests)
    · exact absurd (framed.symm.trans out) nofun
  · rw [same]
    rcases h with rests | ⟨out, -, -⟩
    · have ended := frameEnded_ordered (ordered.withPort (x.port.countDominant (x.readLevel heard level)))
        (lineOfBits (heard ++ [x.readLevel heard level]))
      obtain ⟨out, few⟩ := frameEnded_port { x with port := x.port.countDominant (x.readLevel heard level) }
        (lineOfBits (heard ++ [x.readLevel heard level]))
      rw [endFrame_eq]
      refine begun_of_settled ended ?_ out (.inr few)
      rw [frameEnded_bank, port]
      exact rests
    · exact absurd (framed.symm.trans out) nofun

/-- A row of one level. -/
theorem readBits_begun (ordered : s.Ordered) (rests : (s.bank b).hostRunning = false) (level : Bool) (n : Nat) :
    Begun b level (s.readBits (List.replicate n level)) := by
  have row (n : Nat) (x : State) (ordered : x.Ordered) (h : Begun b level x) :
      Begun b level (x.readBits (List.replicate n level)) := by
    induction n generalizing x with
    | zero => exact h
    | succ n ih => exact ih (x.readBit level) (readBit_ordered ordered level) (readBit_begun ordered h)
  exact row n s ordered (.inl rests)

/-- A row of one bit at most is of one level. -/
theorem reads_level {c : Instr} (reads : s.Reads c t) (few : ∀ n bits, c = .frameEnd n bits → n + bits.length ≤ 1) :
    ∃ n level, t = s.readBits (List.replicate n level) := by
  cases reads with
  | stuck n => exact ⟨n, false, rfl⟩
  | clear n => exact ⟨n, true, rfl⟩
  | frame n bits =>
    have few := few n bits rfl
    match bits, few with
    | [], _ => exact ⟨n, true, by rw [List.append_nil]⟩
    | [bit], few =>
      obtain rfl : n = 0 := by simpa using few
      exact ⟨1, bit, rfl⟩

/-- A command that made a bank's operation run. -/
theorem Course.gate (course : s.Course t) (coherent : s.coherent = true) (live : t.heldInReset = false)
    (before : (s.bank b).hostRunning = false) (run : (t.bank b).hostRunning = true) : t.gateAdmits b = true := by
  have same (banks : ∀ b, (s.bank b).Kept (t.bank b)) : t.gateAdmits b = true :=
    absurd ((Bank.hostRunning_of_power (banks b).power).symm.trans run) (by simp [before])
  cases course with
  | kept _ _ _ banks => exact same banks
  | tended _ _ _ banks => exact same banks
  | @settled x _ live change _ _ table eases like =>
    obtain ⟨ordered, eased⟩ := settled_ordered live coherent table eases
    rw [gateAdmits_of_same like]
    exact settle_gate_of_eased ordered (eased b) before (like.bank b ▸ run)
  | cut _ _ reset => exact absurd (live.symm.trans reset) Bool.noConfusion
  | fresh => cases b <;> simp [afterReset, Bank.afterReset, Bank.hostRunning, State.bank] at run

end Sys2Proof.Machine.State

namespace Sys2Proof.Machine

/-- Settles O60: by how the command came to its result, which is the end of a step of the bank, a row of bits, or a change that
eases the banks. -/
theorem noPulseBeginsBeyondTheBudget : Obligations.NoPulseBeginsBeyondTheBudget := by
  intro s t c b coherent _ _ draws live few ht live' run begins
  have drawn : s.Drawn := (State.drawsWithin_iff.1 draws).resolve_left (by simp [live])
  cases ends : endsStepOf b c with
  | true =>
    have ended := State.StepEnds.of_exec ends ht
    exact ended.gate drawn (.of_coherent coherent live) run (begins.imp_left And.right)
  | false =>
    have before : (s.bank b).hostRunning = false := begins.resolve_left (by simp [ends])
    rcases State.Course.of_exec ht with course | reads
    · exact course.gate coherent live' before run
    · obtain ⟨n, level, rfl⟩ := State.reads_level reads few
      rcases State.readBits_begun (.of_coherent coherent live) before level n with rests | ⟨-, -, gate⟩
      · exact absurd run (by simp [rests])
      · exact gate run

end Sys2Proof.Machine

/-! # Joining, leaving, and the timers of the holding -/

namespace Sys2Proof.Machine

/-! ### JOIN and LEAVE (R146, R153 to R155) -/

namespace State

variable {s : State} {params : List Byte}

theorem exec_join_badLength (hr : s.ready = true) (h : params ≠ []) : exec (.join params) s = .next (s.answer .badLength) := by
  show execJoin params s = _
  rw [execJoin, transaction_ready hr, if_pos h]

theorem exec_join (hr : s.ready = true) : exec (.join []) s =
    .next (if s.ctl.station.mayJoin then s.joinBus.answer .accepted else s.answer .wrongState) := by
  show execJoin [] s = _
  rw [execJoin, transaction_ready hr, if_neg (not_not.2 rfl)]

theorem mayJoin_iff {st : StationState} : st.mayJoin = true ↔ st = .configured ∨ st = .rxFault ∨ st = .txFault := by
  cases st <;> simp [StationState.mayJoin]

theorem exec_leave_badLength (hr : s.ready = true) (h : params ≠ []) :
    exec (.leave params) s = .next (s.answer .badLength) := by
  show execLeave params s = _
  rw [execLeave, transaction_ready hr, if_pos h]

theorem exec_leave_wrongState (hr : s.ready = true) (h : ¬ (s.ctl.station = .inService ∧ s.idle = true)) :
    exec (.leave []) s = .next (s.answer .wrongState) := by
  show execLeave [] s = _
  rw [execLeave, transaction_ready hr, if_neg (not_not.2 rfl), if_neg h]

theorem exec_leave (hr : s.ready = true) (h : s.ctl.station = .inService ∧ s.idle = true) : exec (.leave []) s =
    .next (if s.ctl.own.active then s.startLeaving.answer .accepted else s.enterConfigured.answer .accepted) := by
  show execLeave [] s = _
  rw [execLeave, transaction_ready hr, if_neg (not_not.2 rfl), if_pos h]

theorem idle_iff : s.idle = true ↔
    s.bank0.queue = [] ∧ s.bank1.queue = [] ∧ s.bank0.internal = none ∧ s.bank1.internal = none := by
  simp [idle, List.isEmpty_iff, and_assoc]

end State

theorem Entry.active_iff {e : Entry} : e.active = true ↔ 0 < e.held ∨ e.waiting ≠ none := by
  simp [Entry.active, Option.isSome_iff_ne_none]

/-- The transmit set of a station that enters LEAVING (R137, R154). -/
theorem State.startLeaving_ctl (s : State) : s.startLeaving.ctl = { s.ctl with
    station := .leaving
    transmit := {
      hello := false, claim := false, evict := Vector.replicate 16 none
      release := s.ctl.transmit.release || decide (0 < s.ctl.own.held)
      renew := s.ctl.transmit.renew && decide (s.ctl.own.held = 0)
      withdraw := s.ctl.transmit.withdraw || s.ctl.own.waiting.isSome }
    holdOff := none } := by
  have own : ({ s.ctl with
      station := .leaving
      transmit := { s.ctl.transmit with claim := false, evict := Vector.replicate 16 none, hello := false } } :
      Controller).own = s.ctl.own := rfl
  unfold State.startLeaving Controller.tendLeaving
  dsimp only
  rw [own]
  by_cases held : 0 < s.ctl.own.held
  · rw [if_pos held]
    simp [TransmitSet.queueRelease, held, Nat.ne_of_gt held]
  · rw [if_neg held]
    simp [Nat.eq_zero_of_not_pos held]

/-- Settles O7, by the states in which JOIN is taken. -/
theorem joinStartsLearning : Obligations.JoinStartsLearning := by
  intro s hr
  refine ⟨fun may => ?_, fun configured rxFault txFault => ?_, fun params h => State.exec_join_badLength hr h,
    fun learning b => ?_⟩
  · rw [State.exec_join hr, if_pos (State.mayJoin_iff.2 may)]
    rfl
  · rw [State.exec_join hr, if_neg (by simp [State.mayJoin_iff, configured, rxFault, txFault])]
    rfl
  · simp [State.gateAdmits, Controller.mayDraw, learning]

/-- Settles O8, row by row of the table. -/
theorem leaveGivesBackOrGoes : Obligations.LeaveGivesBackOrGoes := by
  intro s hr
  refine ⟨fun params h => State.exec_leave_badLength hr h, fun busy => State.exec_leave_wrongState hr ?_,
    fun inService queue0 queue1 internal0 internal1 => ?_⟩
  · rw [State.idle_iff]
    tauto
  · rw [State.exec_leave hr ⟨inService, State.idle_iff.2 ⟨queue0, queue1, internal0, internal1⟩⟩]
    refine ⟨fun held waiting => ?_, fun active => ?_⟩
    · rw [if_neg (by simp [Entry.active_iff, held, waiting])]
      rfl
    · rw [if_pos (Entry.active_iff.2 active), ← State.startLeaving_ctl]
      rfl

/-! ### The hold-off and the renewal timer (R92 to R94, R100) -/

namespace State

variable {s : State}

theorem happening_refused {enabled : Bool} (h : enabled = false) (r : Refusal) (act : State → State) :
    s.happening enabled r act = .refused r := by simp [happening, h]

theorem exec_releaseHoldOffExpiry (s : State) : exec .releaseHoldOffExpiry s =
    s.happening s.ctl.holdOff.isSome .timerNotRunning fun s => s.holdOffOver.settle := rfl

theorem exec_renewalDue (live : s.heldInReset = false) (runs : s.ctl.leaseRuns = true) : exec .renewalDue s = .next { s with
    ctl := { s.ctl.renewalAt s.ctl.renewTicks with
      transmit := { s.ctl.transmit with renew := s.ctl.transmit.renew || !s.ctl.transmit.release } } } := by
  show execRenewalDue s = _
  rw [execRenewalDue, runs, happening_enabled live]
  rfl

theorem exec_selfLeaseLapse (live : s.heldInReset = false) (runs : s.ctl.leaseRuns = true) :
    exec .selfLeaseLapse s =
      .next (State.settle { s with ctl := { s.ctl.renewalAt s.ctl.leaseTicks with lapsed := true } }) := by
  show execSelfLeaseLapse s = _
  rw [execSelfLeaseLapse, runs, happening_enabled live]

theorem exec_renewal_refused (rests : s.ctl.leaseRuns = false) :
    exec .renewalDue s = .refused .timerNotRunning ∧ exec .selfLeaseLapse s = .refused .timerNotRunning := by
  show execRenewalDue s = _ ∧ execSelfLeaseLapse s = _
  exact ⟨happening_refused rests _ _, happening_refused rests _ _⟩

theorem holdOffOver_solo (excess : s.need < s.holding) (solo : s.ctl.station = .solo) : s.holdOffOver =
    { s with ctl := { s.ctl with
      holdOff := none, table := s.ctl.table.put s.ctl.id { s.ctl.own.advanced with held := s.need } } } :=
  (if_pos excess).trans (if_pos solo)

theorem holdOffOver_release (excess : s.need < s.holding) (other : s.ctl.station ≠ .solo) : s.holdOffOver =
    { s with ctl := { s.ctl with holdOff := none, transmit := { s.ctl.transmit with release := true, renew := false } } } :=
  (if_pos excess).trans (if_neg other)

theorem leaseRuns_iff {c : Controller} : c.leaseRuns = true ↔
    (c.station = .inService ∨ c.station = .leaving) ∧ c.renewal.isSome = true ∧ (0 < c.own.held ∨ c.own.waiting ≠ none) := by
  simp only [Controller.leaseRuns, Bool.and_eq_true, StationState.keepsLease_iff, Entry.active_iff, and_assoc]

/-- A LAPSED station's gate is closed, and it orders a pause of what runs (R94, R96). -/
theorem settle_lapsed (lapsed : s.ctl.lapsed = true) (other : s.ctl.station ≠ .solo) (b : BankId) :
    s.settle.gateAdmits b = false ∧ ((s.settle.bank b).hostRunning = true → (s.settle.bank b).pauseOrder = true) := by
  have closed : s.settle.gateAdmits b = false := by simp [gateAdmits, Controller.mayDraw, lapsed, other]
  exact ⟨closed, fun run => (settle_ordered s b run).resolve_left (by simp [closed])⟩

end State

/-- Settles O39, by the station states in which a holding is given back. -/
theorem holdOffExpiryGivesBackTheExcess : Obligations.HoldOffExpiryGivesBackTheExcess := by
  intro s live
  refine ⟨fun none => ?_, fun runs excess => ?_⟩
  · rw [State.exec_releaseHoldOffExpiry, none]
    exact State.happening_refused rfl _ _
  have expires : exec .releaseHoldOffExpiry s = .next s.holdOffOver.settle := by
    have enabled : s.ctl.holdOff.isSome = true := Option.isSome_iff_ne_none.2 runs
    rw [State.exec_releaseHoldOffExpiry, enabled, State.happening_enabled live]
  rw [expires]
  refine ⟨fun other => by rw [State.holdOffOver_release excess other], fun solo => ?_⟩
  refine ⟨s.ctl.table.put s.ctl.id { s.ctl.own.advanced with held := s.need }, ?_, PerStation.entry_put _ _ _,
    fun k other => ?_⟩
  · rw [State.holdOffOver_solo excess solo]
  exact PerStation.entry_put_other _ other _

/-- Settles O40: the timers run exactly where the lease does, and a LAPSED station's gate is closed. -/
theorem renewalAndLapseFollowTheTimer : Obligations.RenewalAndLapseFollowTheTimer := by
  intro s g n live settings
  have lease : s.ctl.leaseTicks = 10 * g.lease := by
    simp only [Controller.leaseTicks, settings]
    exact Nat.mul_comm _ _
  have half : s.ctl.renewTicks = 5 * g.lease := by
    rw [Controller.renewTicks, lease]
    omega
  refine ⟨fun station renewal active => ?_, fun stops => ?_⟩
  · have runs : s.ctl.leaseRuns = true := State.leaseRuns_iff.2 ⟨station, by simp [renewal], active⟩
    have at_limit (limit : Nat) : s.ctl.renewalAt limit = { s.ctl with renewal := some (max limit n) } := by
      simp [Controller.renewalAt, renewal]
    have due : exec .renewalDue s = .next { s with ctl := { s.ctl with
        renewal := some (max (5 * g.lease) n)
        transmit := { s.ctl.transmit with renew := s.ctl.transmit.renew || !s.ctl.transmit.release } } } := by
      rw [State.exec_renewalDue live runs, half, at_limit]
    have lapses : exec .selfLeaseLapse s = .next (State.settle { s with ctl := { s.ctl with
        renewal := some (max (10 * g.lease) n), lapsed := true } }) := by
      rw [State.exec_selfLeaseLapse live runs, lease, at_limit]
    refine ⟨due, lapses, fun t ht => ?_⟩
    have other : s.ctl.station ≠ .solo := by rcases station with h | h <;> simp [h]
    have settled := Host.Outcome.next.inj (lapses.symm.trans ht)
    generalize hx : ({ s with ctl := { s.ctl with renewal := some (max (10 * g.lease) n), lapsed := true } } : State) = x
      at settled
    have lapsed : x.ctl.lapsed = true := by rw [← hx]
    have other : x.ctl.station ≠ .solo := by rw [← hx]; exact other
    rw [← settled]
    exact ⟨(State.settle_ctl_lapsed x).trans lapsed, State.settle_lapsed lapsed other⟩
  · have rests : s.ctl.leaseRuns = false := by
      refine Bool.eq_false_iff.2 fun runs => ?_
      obtain ⟨station, renewal, active⟩ := State.leaseRuns_iff.1 runs
      rcases stops with ⟨h1, h2⟩ | none | ⟨held, waiting⟩
      · exact station.elim h1 h2
      · simp [none] at renewal
      · exact active.elim (by simp [held]) (absurd waiting)
    exact State.exec_renewal_refused rests

end Sys2Proof.Machine

/-! # The reservations and the gate, line by line -/

namespace Sys2Proof.Machine

namespace Bank

variable {bk : Bank} {sl : Slot} {behind : List Slot}

/-! ### The two tables (R85 to R87) -/

theorem reservation_isRunning_of_internal {i : Internal} (hi : bk.internal = some i) :
    bk.reservation = i.op.reservation ∧ bk.isRunning = i.begun := by
  simp [reservation, isRunning, hi]

section Head

variable (hi : bk.internal = none) (hq : bk.queue = sl :: behind)

include hi hq

theorem reservation_isRunning_of_taken (hs : sl.state = .waiting ∨ sl.state = .running ∨ sl.state = .held) :
    bk.reservation = sl.reservation ∧ (bk.isRunning = true ↔ sl.state = .running) := by
  rcases hs with hs | hs | hs <;> simp [reservation, isRunning, hi, hq, hs]

theorem reservation_isRunning_of_unpowered (hs : sl.state = .queued ∨ sl.state = .outputWait ∨ sl.state = .recording) :
    bk.reservation = 0 ∧ bk.isRunning = false := by
  rcases hs with hs | hs | hs <;> simp [reservation, isRunning, hi, hq, hs]

/-! ### What an admitted bank begins (R37, R56, R57, R62, R70, R97) -/

theorem proceed_waiting (hs : sl.state = .waiting) : bk.proceed = bk.beginHost sl := by
  simp [proceed, hi, hq, hs]

theorem proceed_held (hs : sl.state = .held) : bk.proceed = bk.nextPulse sl := by
  simp [proceed, hi, hq, hs]

end Head

theorem proceed_internal {i : Internal} (hi : bk.internal = some i) : bk.proceed = bk.beginInternal i.op := by
  simp [proceed, hi]

theorem beginHost_finish {r : OpenBlock} (ho : sl.op = .finish) (hr : bk.openBlock = some r) :
    bk.beginHost sl = ({ bk with passPulses := 0 }).passPulse sl ⟨.fine, r.pendingWordLine⟩ := by
  simp [beginHost, ho, hr]

theorem isWaiting_iff : bk.isWaiting = true ↔ bk.reservation ≠ 0 ∧ bk.isRunning = false := by
  simp [isWaiting]

end Bank

namespace State

variable {s : State} {b : BankId}

theorem mayDraw_iff {c : Controller} : c.mayDraw = true ↔
    (c.station = .inService ∧ c.lapsed = false) ∨ c.station = .solo := by
  simp [Controller.mayDraw]

/-- Up to H, and up to the total of a RELEASE in its attempt (R88). -/
theorem le_admissible_iff {n : Nat} : n ≤ s.admissible ↔
    n ≤ s.holding ∧ ∀ total line, s.port.sending = some ⟨.release total, line⟩ → n ≤ total.toNat := by
  unfold admissible
  split
  · rename_i total line hp
    rw [hp, le_min_iff]
    refine and_congr_right fun _ => ⟨fun h t l same => ?_, fun h => h total line rfl⟩
    injection same with same
    injection same with same _
    injection same with same
    exact same ▸ h
  · rename_i other
    exact ⟨fun h => ⟨h, fun t l hp => absurd hp (other t l)⟩, And.left⟩

theorem gateAdmits_iff : s.gateAdmits b = true ↔
    ((s.ctl.station = .inService ∧ s.ctl.lapsed = false) ∨ s.ctl.station = .solo) ∧
    (s.bank (otherBank b)).runningReservation + (s.bank b).reservation ≤ s.holding ∧
    (∀ total line, s.port.sending = some ⟨.release total, line⟩ →
      (s.bank (otherBank b)).runningReservation + (s.bank b).reservation ≤ total.toNat) := by
  rw [gateAdmits, Bool.and_eq_true, mayDraw_iff, decide_eq_true_eq, le_admissible_iff]

end State

/-- Settles O36: the tables by the front's state, the gate by its three conditions, and what proceeds by what stands at the front. -/
theorem gateAdmitsUnderTheHolding : Obligations.GateAdmitsUnderTheHolding := by
  refine ⟨fun bk => ?tables, fun s => rfl, fun s b => ?gate, fun bk => ?begins⟩
  case tables =>
    refine ⟨fun op begun hi => ?internal, fun hi hq => ?empty, fun sl behind hi hq => ?host, rfl⟩
    case internal =>
      obtain ⟨reserves, runs⟩ := Bank.reservation_isRunning_of_internal hi
      exact ⟨reserves.trans (by cases op <;> rfl), runs⟩
    case empty => simp [Bank.reservation, Bank.isRunning, hi, hq]
    case host =>
      refine ⟨Bank.reservation_isRunning_of_taken hi hq, Bank.reservation_isRunning_of_unpowered hi hq,
        fun hs untaken => ?_, fun hs before r after split taken first => ?_⟩
      · have none : overtaker behind = none := overtaker_eq_none_iff.2 untaken
        exact ⟨Bank.reservation_suspended_head hi hq hs none, Bank.isRunning_suspended_head hi hq hs none⟩
      · have found : overtaker behind = some r := split ▸ overtaker_of_first_taken taken first
        exact ⟨Bank.reservation_overtaking hi hq hs found, Bank.isRunning_overtaking_iff hi hq hs found⟩
  case gate =>
    refine ⟨State.gateAdmits_iff, Bank.isWaiting_iff, fun waits admitted => if_pos (by simp [waits, admitted]),
      fun stays => if_neg ?_⟩
    rcases stays with h | h <;> simp [h]
  case begins =>
    refine ⟨fun scan hi => Bank.proceed_internal hi, fun hi => ?update, fun hi => ?rewrite, fun sl behind hi hq => ?host⟩
    case update =>
      rw [Bank.proceed_internal hi]
      cases hm : bk.mapBlock with
      | none => simp [Bank.beginInternal, Bank.firstMapPulse, Bank.currentMapBlock, hm]
      | some block => cases block <;> simp [Bank.beginInternal, Bank.firstMapPulse, Bank.currentMapBlock, hm]
    case rewrite =>
      rw [Bank.proceed_internal hi]
      cases hm : bk.mapBlock with
      | none => simp [Bank.beginInternal, Bank.otherMapBlock, hm]
      | some block => cases block <;> simp [Bank.beginInternal, Bank.otherMapBlock, hm]
    case host =>
      refine ⟨fun waits => ?_, Bank.proceed_held hi hq⟩
      rw [Bank.proceed_waiting hi hq waits]
      refine ⟨fun w p ho => ?read, fun ho => ?blank, fun w ho few => ?program, fun r ho hr => ?finish, fun e ho => ?erase⟩
      case read => simp [Bank.beginHost, ho, Bank.beginSense, updateTag]
      case blank => simp [Bank.beginHost, ho, Bank.beginSense, updateTag]
      case program =>
        have nonzero : w ≠ 0 := Nat.ne_of_gt few
        exact ⟨by simp [Bank.beginHost, ho, nonzero], fun fresh => by simp [Bank.beginHost, Bank.nextPulse, ho, nonzero, fresh]⟩
      case finish =>
        rw [Bank.beginHost_finish ho hr]
        simp [Bank.passPulse, PassMarks.begin, PassKind.use, OpenBlock.pendingWordLine, Slot.pulsed, updateTag]
      case erase => simp [Bank.beginHost, Bank.nextPulse, ho]

end Sys2Proof.Machine

/-! # Claims and giving back (R90, R92, R99, R100) -/

namespace Sys2Proof.Machine

theorem le_addWaiting (budget n : Nat) (bk : Bank) : n ≤ addWaiting budget n bk := by
  unfold addWaiting
  split
  · exact Nat.le_add_right _ _
  · exact le_rfl

/-- No entry other than the own one waits. -/
theorem otherWaiting_eq_false_iff {t : PerStation Entry} {own : StationId} :
    otherWaiting t own = false ↔ ∀ k, k ≠ own → (t.entry k).waiting = none := by
  simp [otherWaiting, List.any_eq_false, mem_idsBut]

namespace State

variable {s : State}

theorem draw_le_claimTotal (s : State) : s.draw ≤ s.claimTotal :=
  (le_addWaiting _ _ s.bank0).trans (le_addWaiting _ _ s.bank1)

theorem claimNeeded_iff : s.claimNeeded = true ↔
    (s.bank0.isWaiting = true ∨ s.bank1.isWaiting = true) ∧ s.holding < s.claimTotal := by
  simp [claimNeeded]

/-- A SOLO station holds at once what it needs (R100). -/
theorem soloClaim_granted (solo : s.ctl.station = .solo) (needed : s.claimNeeded = true)
    (within : s.claimTotal ≤ s.ctl.budget) : s.soloClaim.holding = s.claimTotal ∧ s.soloClaim.ctl.own.waiting = none := by
  have granted : s.soloClaim.ctl.own = { s.ctl.own.advanced with held := s.claimTotal, waiting := none } := by
    rw [soloClaim, if_pos ⟨solo, needed, within⟩]
    exact Controller.setOwn_own _ _
  exact ⟨congrArg Entry.held granted, congrArg Entry.waiting granted⟩

/-- While H is above N a RELEASE is pending or the hold-off runs; the hold-off runs only then, with no RELEASE pending and no
other entry waiting. -/
theorem tendExcess_spec (s : State) :
    (s.need < s.holding → s.tendExcess.ctl.transmit.release = true ∨ s.tendExcess.ctl.holdOff ≠ none) ∧
    (s.tendExcess.ctl.holdOff ≠ none → s.need < s.holding ∧ s.tendExcess.ctl.transmit.release = false ∧
      otherWaiting s.ctl.table s.ctl.id = false) := by
  unfold tendExcess
  split
  · rename_i excess
    split
    · rename_i pending
      exact ⟨fun _ => .inl pending, fun some => absurd rfl some⟩
    · rename_i unsent
      split
      · exact ⟨fun _ => .inl rfl, fun some => absurd rfl some⟩
      · rename_i none
        exact ⟨fun _ => .inr nofun, fun _ => ⟨excess, Bool.eq_false_iff.2 unsent, Bool.eq_false_iff.2 none⟩⟩
  · rename_i within
    exact ⟨fun excess => absurd excess within, fun some => absurd rfl some⟩

/-- What settling tends in IN_SERVICE. -/
theorem settle_inService (inService : s.ctl.station = .inService) :
    ∃ x : State, s.settle = x.tendExcess.tendClaims := by
  refine ⟨s.advanceBanks.admitAll.noteWaiting.orderPauses, ?_⟩
  have station : s.advanceBanks.admitAll.noteWaiting.orderPauses.ctl.station = .inService := by simpa using inService
  rw [settle, tendTransmit, station]

theorem tendExcess_holding (s : State) : s.tendExcess.holding = s.holding := by
  simp [holding, Controller.own]

theorem tendExcess_need (s : State) : s.tendExcess.need = s.need := by
  simp [need]

end State

/-- Settles O37: the total and the SOLO claim by their definitions, and the transmit set by what settling tends last. -/
theorem claimsAndReleasesFollowTheNeed : Obligations.ClaimsAndReleasesFollowTheNeed := by
  intro s
  refine ⟨rfl, s.draw_le_claimTotal, State.claimTotal_le, fun solo needed within =>
    State.soloClaim_granted solo needed (State.claimTotal_le within), fun inService => ?_⟩
  obtain ⟨x, settled⟩ := State.settle_inService inService
  rw [settled]
  obtain ⟨gives, holds⟩ := x.tendExcess_spec
  have excess : x.tendExcess.tendClaims.need < x.tendExcess.tendClaims.holding ↔ x.need < x.holding := by
    show x.tendExcess.need < x.tendExcess.holding ↔ _
    rw [State.tendExcess_need, State.tendExcess_holding]
  refine ⟨State.claimNeeded_iff (s := x.tendExcess), fun waits unclaimed => ?_, fun above => gives (excess.1 above),
    fun runs => ?_⟩
  · have needed : x.tendExcess.claimNeeded = false := unclaimed
    have waits : x.tendExcess.ctl.own.waiting.isSome = true := Option.isSome_iff_ne_none.2 waits
    show (_ || (x.tendExcess.ctl.own.waiting.isSome && !x.tendExcess.claimNeeded)) = true
    simp [waits, needed]
  · obtain ⟨above, unsent, none⟩ := holds runs
    refine ⟨excess.2 above, unsent, ?_⟩
    have same : x.tendExcess.tendClaims.ctl.table = x.ctl.table ∧ x.tendExcess.tendClaims.ctl.id = x.ctl.id := by simp
    rw [same.1, same.2]
    exact otherWaiting_eq_false_iff.1 none

end Sys2Proof.Machine

/-! # A frame read bit by bit

A port that is in a frame at its start reads fifty bits up to the end of the check field, then the verdict slots with what it drives
itself, and at the third end bit the frame ends with the line as it read it (R123, R131 to R136). -/

namespace Sys2Proof.Machine

/-! ### A line as far as it has been read -/

/-- The first bits of a line, in the order sent. -/
def lineUpTo (l : Line) (n : Nat) : List Bool := (List.range n).map (lineBit l)

theorem lineUpTo_succ (l : Line) (n : Nat) : lineUpTo l (n + 1) = lineUpTo l n ++ [lineBit l n] := by
  simp [lineUpTo, List.range_succ]

@[simp] theorem length_lineUpTo (l : Line) (n : Nat) : (lineUpTo l n).length = n := by simp [lineUpTo]

theorem getD_lineUpTo (l : Line) {n k : Nat} (h : k < n) (d : Bool) : (lineUpTo l n).getD k d = lineBit l k := by
  simp [lineUpTo, List.getD, h]

theorem lineBit_lineOfBits_lineUpTo (l : Line) {n k : Nat} (h : k < n) (hn : n ≤ 55) :
    lineBit (lineOfBits (lineUpTo l n)) k = lineBit l k := by
  rw [lineBit_lineOfBits (h.trans_le hn), getD_lineUpTo l h]

theorem lineOfBits_lineUpTo (l : Line) : lineOfBits (lineUpTo l 55) = l := lineOfBits_lineBits l

/-- The bits up to the verdict slots are the same. -/
theorem lineUpTo_congr {l m : Line} {n : Nat} (h : ∀ k, k < n → lineBit l k = lineBit m k) : lineUpTo l n = lineUpTo m n :=
  List.map_congr_left fun k hk => h k (List.mem_range.1 hk)

/-- A line as a station reads it that drives the reject slot, or the objection slot, dominant (log entry 8). -/
def heardLine (l : Line) (rejects objects : Bool) : Line :=
  lineOfBits ((List.range 55).map fun k =>
    if k = 50 then lineBit l 50 && !rejects else if k = 51 then lineBit l 51 && !objects else lineBit l k)

section Heard

variable (l : Line) (rejects objects : Bool)

theorem lineBit_heardLine {k : Nat} (h : k < 55) : lineBit (heardLine l rejects objects) k =
    if k = 50 then lineBit l 50 && !rejects else if k = 51 then lineBit l 51 && !objects else lineBit l k := by
  rw [heardLine, lineBit_lineOfBits h]
  simp [List.getD, h]

theorem lineBit_heardLine_of_ne {k : Nat} (h : k < 55) (reject : k ≠ 50) (objection : k ≠ 51) :
    lineBit (heardLine l rejects objects) k = lineBit l k := by
  rw [lineBit_heardLine l rejects objects h, if_neg reject, if_neg objection]

theorem lineRejectDominant_heardLine :
    lineRejectDominant (heardLine l rejects objects) = (lineRejectDominant l || rejects) := by
  rw [lineRejectDominant, lineBit_heardLine l rejects objects (by decide), if_pos rfl, lineRejectDominant]
  simp

theorem lineObjectionDominant_heardLine :
    lineObjectionDominant (heardLine l rejects objects) = (lineObjectionDominant l || objects) := by
  rw [lineObjectionDominant, lineBit_heardLine l rejects objects (by decide), if_neg (by decide), if_pos rfl,
    lineObjectionDominant]
  simp

theorem lineBroken_heardLine : lineBroken (heardLine l rejects objects) = lineBroken l := by
  have same {k : Nat} (h : k < 55) (reject : k ≠ 50) (objection : k ≠ 51) :=
    lineBit_heardLine_of_ne l rejects objects h reject objection
  rw [lineBroken, same (by decide) (by decide) (by decide), same (by decide) (by decide) (by decide),
    same (by decide) (by decide) (by decide), lineBroken]

theorem lineUpTo_heardLine : lineUpTo (heardLine l rejects objects) 50 = lineUpTo l 50 :=
  lineUpTo_congr fun k hk => lineBit_heardLine_of_ne l rejects objects (by omega) (by omega) (by omega)

end Heard

namespace State

variable {s x : State}

/-! ### Bits of a frame -/

/-- The port has read so much of a frame, with what it has fixed of its own part in it; its dominant count and BUS_STUCK move with
every bit. -/
def Heard (s : State) (q : Port) (heard : List Bool) (x : State) : Prop :=
  ∃ d k, x = { s with port := { q with framing := .inFrame heard, dominantCount := d, stuck := k } }

/-- What the station drives in the objection slot of a frame that it has read to the end of the check field (R135). -/
def willObject (s : State) (line : Line) : Bool :=
  decide (s.ctl.station = .inService) && decide ((s.checkRead (lineUpTo line 50)).judgement = some false) &&
    (lineBit line 50 && !(s.checkRead (lineUpTo line 50)).droveReject)

/-- The line as the station reads it. -/
def hears (s : State) (line : Line) : Line :=
  heardLine line (s.checkRead (lineUpTo line 50)).droveReject (s.willObject line)

theorem countDominant_eq (p : Port) (r : Bool) : ∃ d k, p.countDominant r = { p with dominantCount := d, stuck := k } := by
  unfold Port.countDominant
  split
  · exact ⟨0, p.stuck, rfl⟩
  · exact ⟨_, _, rfl⟩

/-- A port that reads a frame, but for its counts. -/
def Port.Reads (q : Port) (heard : List Bool) (p : Port) : Prop :=
  ∃ d k, p = { q with framing := .inFrame heard, dominantCount := d, stuck := k }

section Bits

variable {q q' : Port} {heard : List Bool} {b level : Bool} (live : s.heldInReset = false) (on : s.ctl.station.onBus = true)
  (h : s.Heard q heard x)

include live on h

theorem Heard.readBit : x.readBit b = x.frameBit heard b := by
  obtain ⟨d, k, rfl⟩ := h
  exact readBit_inFrame (by exact live) (by exact on) rfl b

/-- A bit of a frame before its last is heard, and the port fixes what it drives with it. -/
theorem Heard.bit (short : heard.length + 1 < frameBits) (hl : x.readLevel heard b = level)
    (slots : Port.Reads q' heard (x.slotsAfter (heard ++ [level]))) : s.Heard q' (heard ++ [level]) (x.readBit b) := by
  have read := h.readBit live on (b := b)
  obtain ⟨d, k, rfl⟩ := h
  obtain ⟨d', k', fixed⟩ := slots
  obtain ⟨d'', k'', counted⟩ := countDominant_eq { q' with framing := .inFrame heard, dominantCount := d', stuck := k' } level
  refine ⟨d'', k'', read.trans ?_⟩
  rw [frameBit, hl]
  dsimp only
  rw [if_pos (by simpa using short), fixed, counted]

/-- A bit with which the port fixes nothing. -/
theorem Heard.plain (short : heard.length + 1 < frameBits) (hl : x.readLevel heard b = level)
    (check : heard.length + 1 ≠ checkEnd) (objection : heard.length + 1 ≠ checkEnd + 2) :
    s.Heard q (heard ++ [level]) (x.readBit b) := by
  refine h.bit live on short hl ?_
  have plain : x.slotsAfter (heard ++ [level]) = x.port := by
    simp [slotsAfter, check, show heard.length ≠ checkEnd + 1 by omega]
  obtain ⟨d, k, rfl⟩ := h
  exact ⟨d, k, plain⟩

theorem Heard.bits (started : 0 < heard.length) (bits : List Bool) (before : heard.length + bits.length < checkEnd) :
    s.Heard q (heard ++ bits) (x.readBits bits) := by
  obtain ⟨d, k, rfl⟩ := h
  obtain ⟨d', k', read⟩ := readBits_hear (s := { s with port := { q with
    framing := .inFrame heard, dominantCount := d, stuck := k } }) live on rfl started bits before
  exact ⟨d', k', read⟩

/-- With the last bit the frame ends. -/
theorem Heard.last (whole : heard.length + 1 = frameBits) (hl : x.readLevel heard b = level) :
    ∃ y, s.Heard q heard y ∧ x.readBit b = y.endFrame (lineOfBits (heard ++ [level])) := by
  have read := h.readBit live on (b := b)
  obtain ⟨d, k, rfl⟩ := h
  obtain ⟨d', k', counted⟩ := countDominant_eq { q with framing := .inFrame heard, dominantCount := d, stuck := k } level
  refine ⟨_, ⟨d', k', rfl⟩, read.trans ?_⟩
  rw [frameBit, hl]
  dsimp only
  rw [if_neg (by simp [whole]), counted]

end Bits

/-! ### The whole frame -/

section Frame

variable {line : Line} (live : s.heldInReset = false) (on : s.ctl.station.onBus = true)

include live on

/-- The bits up to the end of the check field, and the judgement that they bring. -/
theorem readBits_checkField (hf : s.port.framing = .inFrame []) (start : lineBit line 0 = false) :
    s.Heard (s.checkRead (lineUpTo line 50)) (lineUpTo line 50) (s.readBits (lineUpTo line 50)) := by
  have begun : s.Heard s.port [] s := ⟨s.port.dominantCount, s.port.stuck, by rw [← hf]⟩
  have first : s.Heard s.port [lineBit line 0] (s.readBit (lineBit line 0)) :=
    begun.plain live on (by decide) (by rw [start]; rfl) (by decide) (by decide)
  have field := first.bits live on (by simp) ((List.range' 1 48).map (lineBit line)) (by simp [checkEnd])
  have split : lineUpTo line 49 = [lineBit line 0] ++ (List.range' 1 48).map (lineBit line) := rfl
  generalize (List.range' 1 48).map (lineBit line) = rest at field split
  have row : s.readBits (lineUpTo line 50) = ((s.readBit (lineBit line 0)).readBits rest).readBit (lineBit line 49) := by
    rw [lineUpTo_succ line 49, split, readBits_append, readBits_append]
    rfl
  rw [row, lineUpTo_succ line 49]
  rw [← split] at field
  generalize (s.readBit (lineBit line 0)).readBits rest = x at field
  refine field.bit live on (by simp [frameBits]) (by simp [readLevel, checkEnd]) ?_
  rw [slotsAfter, if_pos (by simp [checkEnd])]
  obtain ⟨d, k, rfl⟩ := field
  exact ⟨d, k, rfl⟩

end Frame

/-- What the port has fixed when the frame ends. -/
def heardPort (s : State) (line : Line) : Port := { s.checkRead (lineUpTo line 50) with droveObjection := s.willObject line }

section Hears

variable (s) (line : Line)

theorem lineBit_hears_reject : lineBit (s.hears line) 50 =
    (lineBit line 50 && !(s.checkRead (lineUpTo line 50)).droveReject) :=
  (lineBit_heardLine _ _ _ (by decide)).trans (if_pos rfl)

theorem lineBit_hears_objection : lineBit (s.hears line) 51 = (lineBit line 51 && !s.willObject line) :=
  (lineBit_heardLine _ _ _ (by decide)).trans ((if_neg (by decide)).trans (if_pos rfl))

theorem lineBit_hears_closing {n : Nat} (h : n < 55) (past : 51 < n) : lineBit (s.hears line) n = lineBit line n :=
  lineBit_heardLine_of_ne _ _ _ h (by omega) (by omega)

theorem lineUpTo_hears : lineUpTo (s.hears line) 50 = lineUpTo line 50 := lineUpTo_heardLine line _ _

end Hears

/-- Past the reject slot the station knows whether it objects. -/
theorem Heard.objects {q : Port} {heard : List Bool} {line : Line} {n : Nat} (h : s.Heard q heard x) (hn : 50 < n)
    (judged : q.judgement = (s.checkRead (lineUpTo line 50)).judgement) :
    x.objects (lineUpTo (s.hears line) n) = s.willObject line := by
  obtain ⟨d, k, rfl⟩ := h
  rw [State.objects, getD_lineUpTo _ (show checkEnd < n from hn), show checkEnd = 50 from rfl, lineBit_hears_reject]
  simp only [willObject, judged]
  cases lineBit line 50 && !(s.checkRead (lineUpTo line 50)).droveReject <;> simp [Bool.and_comm]

/-- The bits after the objection slot read as the line has them. -/
theorem readLevel_closing {n : Nat} (h : 51 < n) (x : State) (l : Line) (b : Bool) : x.readLevel (lineUpTo l n) b = b := by
  simp only [readLevel, length_lineUpTo, checkEnd]
  rw [if_neg (by omega), if_neg (by omega), if_neg (by omega)]

/-- A frame is read from its first bit on: it ends with the line as the station reads it, and with what it drove. -/
theorem exec_frameEnd_heard {line : Line} (live : s.heldInReset = false) (on : s.ctl.station.onBus = true)
    (hf : s.port.framing = .inFrame []) (start : lineBit line 0 = false) :
    ∃ y, s.Heard (s.heardPort line) (lineUpTo (s.hears line) 54) y ∧
      exec (.frameEnd 0 (lineBits line)) s = .next (y.endFrame (s.hears line)) := by
  have field : s.Heard (s.checkRead (lineUpTo line 50)) (lineUpTo (s.hears line) 50) (s.readBits (lineUpTo line 50)) := by
    rw [lineUpTo_hears]
    exact readBits_checkField live on hf start
  have row : exec (.frameEnd 0 (lineBits line)) s = .next ((((((s.readBits (lineUpTo line 50)).readBit
      (lineBit line 50)).readBit (lineBit line 51)).readBit (lineBit line 52)).readBit (lineBit line 53)).readBit
        (lineBit line 54)) := by
    have split : lineBits line = lineUpTo line 50 ++
        [lineBit line 50, lineBit line 51, lineBit line 52, lineBit line 53, lineBit line 54] := rfl
    show Host.Outcome.next ((s.readBits []).readBits (lineBits line)) = _
    rw [split, readBits_append, readBits_nil]
    generalize s.readBits (lineUpTo line 50) = x
    rfl
  rw [row]
  generalize s.readBits (lineUpTo line 50) = x at field
  have reject : s.Heard (s.checkRead (lineUpTo line 50)) (lineUpTo (s.hears line) 51) (x.readBit (lineBit line 50)) := by
    rw [lineUpTo_succ _ 50]
    refine field.plain live on (by simp [frameBits]) ?_ (by simp [checkEnd]) (by simp [checkEnd])
    obtain ⟨d, k, rfl⟩ := field
    simp [readLevel, checkEnd, lineBit_hears_reject]
  generalize x.readBit (lineBit line 50) = x at reject
  have objection : s.Heard (s.heardPort line) (lineUpTo (s.hears line) 52) (x.readBit (lineBit line 51)) := by
    have before := reject.objects (line := line) (n := 51) (by decide) rfl
    have after := reject.objects (line := line) (n := 52) (by decide) rfl
    rw [lineUpTo_succ _ 51]
    refine reject.bit live on (by simp [frameBits]) ?_ ?_
    · rw [readLevel, if_neg (by simp), if_neg (by simp [checkEnd]), if_pos (by simp [checkEnd]), before,
        lineBit_hears_objection]
    · rw [← lineUpTo_succ, slotsAfter, if_neg (by simp [checkEnd]), if_pos (by simp [checkEnd]), after]
      obtain ⟨d, k, rfl⟩ := reject
      exact ⟨d, k, rfl⟩
  generalize x.readBit (lineBit line 51) = x at objection
  have first : s.Heard (s.heardPort line) (lineUpTo (s.hears line) 53) (x.readBit (lineBit line 52)) := by
    rw [lineUpTo_succ _ 52, lineBit_hears_closing s line (by decide) (by decide)]
    exact objection.plain live on (by simp [frameBits]) (readLevel_closing (by decide) _ _ _) (by simp [checkEnd])
      (by simp [checkEnd])
  generalize x.readBit (lineBit line 52) = x at first
  have second : s.Heard (s.heardPort line) (lineUpTo (s.hears line) 54) (x.readBit (lineBit line 53)) := by
    rw [lineUpTo_succ _ 53, lineBit_hears_closing s line (by decide) (by decide)]
    exact first.plain live on (by simp [frameBits]) (readLevel_closing (by decide) _ _ _) (by simp [checkEnd])
      (by simp [checkEnd])
  generalize x.readBit (lineBit line 53) = x at second
  obtain ⟨y, heard, ends⟩ := second.last live on (b := lineBit line 54) (by simp [frameBits])
    (readLevel_closing (by decide) _ _ _)
  refine ⟨y, heard, congrArg _ (ends.trans ?_)⟩
  rw [← lineBit_hears_closing s line (by decide) (by decide), ← lineUpTo_succ, lineOfBits_lineUpTo]


end State

end Sys2Proof.Machine

/-! # A station's own frame

What it drove decides its part: the frame is its own where it read every bit as it drove it up to the end of the check field, and it
is at fault where it drove dominant and read recessive (R131, R132, R139). -/

namespace Sys2Proof.Machine

/-! ### Arbitration -/

theorem firstDifference_eq_none_iff {drove read : Line} : firstDifference drove read = none ↔
    ∀ k, 1 ≤ k → k ≤ 49 → lineBit drove k = lineBit read k := by
  simp only [firstDifference, List.find?_eq_none, List.mem_map, List.mem_range, forall_exists_index, and_imp, bne_iff_ne,
    ne_eq, not_not]
  refine ⟨fun h k h1 h49 => h k (k - 1) (by omega) (by omega), fun h k j hj same => ?_⟩
  exact h k (by omega) (by omega)

theorem firstDifference_eq_some {drove read : Line} {k : Nat} (h1 : 1 ≤ k) (h49 : k ≤ 49) (differs : lineBit drove k ≠ lineBit read k)
    (before : ∀ j, 1 ≤ j → j < k → lineBit drove j = lineBit read j) : firstDifference drove read = some k := by
  rw [firstDifference, List.find?_map, Option.map_eq_some_iff]
  refine ⟨k - 1, List.find?_range_eq_some.2 ⟨?_, List.mem_range.2 (by omega), fun j hj => ?_⟩, by omega⟩
  · simpa [Nat.sub_add_cancel h1] using differs
  · simpa using before (j + 1) (by omega) (by omega)

section Part

variable {c : Controller} {a : Attempt} {l : Line}

theorem part_of_remained (h : firstDifference a.line l = none) : c.part (some a) l = .sent a.payload := by
  simp [Controller.part, h]

theorem part_of_faulted {k : Nat} (h : firstDifference a.line l = some k) (drove : lineBit a.line k = false) :
    c.part (some a) l = .faulted := by
  simp [Controller.part, h, drove]

theorem lostEarly_of_remained (h : firstDifference a.line l = none) : a.lostEarly l = false := by
  simp [Attempt.lostEarly, h]

theorem lostEarly_of_faulted {k : Nat} (h : firstDifference a.line l = some k) (drove : lineBit a.line k = false) :
    a.lostEarly l = false := by
  simp [Attempt.lostEarly, h, drove]

end Part

/-! ### What an applied own frame leaves of the transmit set (R93, R139) -/

theorem TransmitSet.afterOwn_eq (x : TransmitSet) (p : Payload) : x.afterOwn p =
    ⟨x.hello && decide (¬ p.kind = 0#3), x.claim && decide (¬ p.kind = 1#3), x.release && decide (¬ p.kind = 2#3), false,
      x.withdraw && decide (¬ p.kind = 5#3), x.evict⟩ := by
  cases p <;> simp [TransmitSet.afterOwn, Payload.kind]

theorem windowAfterOwn_eq (c : Controller) (p : Payload) : c.windowAfterOwn p =
    if p.kind = 0#3 ∧ c.station = .learning then some 0 else c.window := by
  cases p <;> simp [Controller.windowAfterOwn, Payload.kind]

theorem renewDiffers_own (t : PerStation Entry) (own : StationId) (p : Payload) : renewDiffers t own own p = false := by
  cases p <;> simp [renewDiffers]

section ApplyFrom

variable (c : Controller) (p : Payload) (objected : Bool)

theorem applyFrom_own : c.applyFrom c.id p objected =
    (({ c with table := applyFrame c.table c.id p objected } : Controller).ownFrame p).tendEvicts := by
  rw [Controller.applyFrom, if_pos rfl]

/-- Outside IN_SERVICE no EVICT is examined. -/
theorem applyFrom_own_transmit (other : c.station ≠ .inService) :
    (c.applyFrom c.id p objected).transmit = c.transmit.afterOwn p := by
  rw [applyFrom_own, Controller.tendEvicts, if_neg (by exact other)]
  rfl

theorem applyFrom_own_transmit_inService (hs : c.station = .inService) : (c.applyFrom c.id p objected).transmit =
    { c.transmit.afterOwn p with
      evict := examineEvicts c.leaseTicks c.id (applyFrame c.table c.id p objected) (c.transmit.afterOwn p).evict } := by
  rw [applyFrom_own, Controller.tendEvicts, if_pos (by exact hs)]
  rfl

theorem applyFrom_own_fields : (c.applyFrom c.id p objected).table = applyFrame c.table c.id p objected ∧
    (c.applyFrom c.id p objected).lapsed = false ∧ (c.applyFrom c.id p objected).renewal = some 0 ∧
    (c.applyFrom c.id p objected).window = (if p.kind = 0#3 ∧ c.station = .learning then some 0 else c.window) ∧
    (c.applyFrom c.id p objected).id = c.id ∧ (c.applyFrom c.id p objected).diverged = c.diverged := by
  rw [applyFrom_own]
  refine ⟨by simp, by simp [Controller.ownFrame], by simp [Controller.ownFrame], ?_, by simp, by simp⟩
  rw [Controller.tendEvicts_window]
  exact windowAfterOwn_eq c p

end ApplyFrom

namespace State

variable {s x y : State} {line l : Line} {a : Attempt}

/-! ### What settling makes of the transmit set -/

/-- A change with what the gate admits and what waits, before the transmit set is tended. -/
def admitted (s : State) : State := s.advanceBanks.admitAll.noteWaiting.orderPauses

theorem settle_eq (s : State) : s.settle = s.admitted.tendTransmit := rfl

theorem admitted_ctl (other : s.ctl.station ≠ .solo) : s.admitted.ctl = s.ctl := by
  rw [admitted, orderPauses_ctl, noteWaiting_ctl, admitAll, tryBanks_ctl]
  rcases s.advanceBanks.tryBanks.soloClaim_cases with same | ⟨solo, -⟩
  · rw [same, tryBanks_ctl, advanceBanks_ctl]
  · exact absurd (by simpa using solo) other

/-- Where nothing is tended, settling leaves the transmit set. -/
theorem settle_transmit (inService : s.ctl.station ≠ .inService) (leaving : s.ctl.station ≠ .leaving)
    (solo : s.ctl.station ≠ .solo) : s.settle.ctl.transmit = s.ctl.transmit := by
  have ctl := admitted_ctl solo
  rw [settle_eq, tendTransmit, ← ctl]
  rw [← ctl] at inService leaving solo
  split <;> first | contradiction | rfl

theorem settle_transmit_leaving (leaving : s.ctl.station = .leaving) :
    s.settle.ctl.transmit = s.ctl.tendLeaving.transmit := by
  have ctl := admitted_ctl (s := s) (by simp [leaving])
  rw [settle_eq, tendTransmit, ctl, leaving]

theorem tendLeaving_transmit (c : Controller) (renew : c.transmit.renew = false) : c.tendLeaving.transmit =
    ⟨c.transmit.hello, false, c.transmit.release || decide (0 < c.own.held), false,
      c.transmit.withdraw || c.own.waiting.isSome, c.transmit.evict⟩ := by
  unfold Controller.tendLeaving
  dsimp only
  by_cases held : 0 < c.own.held
  · simp [held, TransmitSet.queueRelease]
  · simp [held, renew]

/-- RELEASE is queued where H is above N and another entry waits; the rest of the set stands. -/
theorem tendExcess_transmit (s : State) (renew : s.ctl.transmit.renew = false) :
    s.tendExcess.ctl.transmit = { s.ctl.transmit with
      release := s.ctl.transmit.release || (decide (s.need < s.holding) && otherWaiting s.ctl.table s.ctl.id) } := by
  cases hx : s.ctl.transmit with
  | mk hello claim release _ withdraw evict =>
    rw [hx] at renew
    obtain rfl := renew
    cases release with
    | true => by_cases excess : s.need < s.holding <;> simp [tendExcess, hx, excess]
    | false =>
      by_cases excess : s.need < s.holding
      · by_cases other : otherWaiting s.ctl.table s.ctl.id = true <;>
          simp [tendExcess, hx, excess, other, TransmitSet.queueRelease]
      · simp [tendExcess, hx, excess]

end State

end Sys2Proof.Machine

/-! # The end of a station's own frame (R136, R139, R149) -/

namespace Sys2Proof.Machine.State

variable {s t x y : State} {line l : Line} {a : Attempt} {p : Payload}

/-! ### Applied -/

/-- The station's own verdict on its CLAIM was the other one (R116). -/
def claimDiffers (y : State) (p : Payload) (objected : Bool) : Bool :=
  decide (p.kind = 1#3) && decide (y.port.judgement = some objected)

/-- What an own frame that no station rejects leaves, whether or not the station then leaves the bus. -/
structure OwnApplied (y : State) (p : Payload) (l : Line) (e : State) : Prop where
  table : e.ctl.table = applyFrame y.ctl.table y.ctl.id p (lineObjectionDominant l)
  id : e.ctl.id = y.ctl.id
  lapsed : e.ctl.lapsed = false
  renewal : e.ctl.renewal = some 0
  window : e.ctl.window = if p.kind = 0#3 ∧ y.ctl.station = .learning then some 0 else y.ctl.window
  diverged : e.ctl.diverged = (y.ctl.diverged || y.claimDiffers p (lineObjectionDominant l))
  link : e.link = if y.claimDiffers p (lineObjectionDominant l) then
    { y.link with divergedNews := y.link.divergedNews || !y.ctl.diverged } else y.link
  sending : e.port.sending = none
  droveReject : e.port.droveReject = y.port.droveReject
  droveObjection : e.port.droveObjection = y.port.droveObjection
  rejectionRun : e.port.rejectionRun = if lineBroken l then y.port.rejectionRun else 0
  rejectRun : e.port.rejectRun = y.port.rejectRun

section Applied

variable (sent : y.ctl.part y.port.sending l = .sent p) (read : lineRejectDominant l = false)

include sent read

theorem verdict_sent : y.verdict l = ⟨.sent p, false, lineObjectionDominant l, some (y.ctl.id, p)⟩ := by
  simp [verdict, sent, read, Part.carries]

theorem disagrees_sent : y.disagrees (y.verdict l) = y.claimDiffers p (lineObjectionDominant l) := by
  simp [verdict_sent sent read, disagrees, renewDiffers_own, claimDiffers]

theorem applyVerdict_sent : y.applyVerdict (y.verdict l) = { y with
    ctl := { y.ctl.applyFrom y.ctl.id p (lineObjectionDominant l) with
      diverged := y.ctl.diverged || y.claimDiffers p (lineObjectionDominant l) }
    link := if y.claimDiffers p (lineObjectionDominant l) then
      { y.link with divergedNews := y.link.divergedNews || !y.ctl.diverged } else y.link } := by
  obtain ⟨-, -, -, -, -, diverged⟩ := applyFrom_own_fields y.ctl p (lineObjectionDominant l)
  have disagrees := disagrees_sent sent read
  rw [verdict_sent sent read] at disagrees ⊢
  unfold applyVerdict
  dsimp only
  rw [disagrees]
  cases y.claimDiffers p (lineObjectionDominant l) with
  | false => rw [Bool.or_false, ← diverged]; rfl
  | true => rw [Bool.or_true, ← diverged]; rfl

theorem frameRead_sent_ctl : (y.frameRead l).ctl = { y.ctl.applyFrom y.ctl.id p (lineObjectionDominant l) with
    diverged := y.ctl.diverged || y.claimDiffers p (lineObjectionDominant l) } :=
  congrArg State.ctl (applyVerdict_sent sent read)

theorem frameRead_sent_port : (y.frameRead l).port =
    if lineBroken l then y.port.frameOver l else { y.port.frameOver l with rejectionRun := 0 } := by
  have port : (y.applyVerdict (y.verdict l)).port = y.port := y.applyVerdict_port _
  unfold frameRead
  dsimp only
  rw [port, verdict_sent sent read]
  rfl

theorem frameRead_applied (settled : (y.port.sending.filter fun a => a.lostEarly l) = none) :
    y.OwnApplied p l (y.frameRead l) := by
  obtain ⟨table, lapsed, renewal, window, id, -⟩ := applyFrom_own_fields y.ctl p (lineObjectionDominant l)
  have ctl := frameRead_sent_ctl sent read
  have port := frameRead_sent_port sent read
  have link := congrArg State.link (applyVerdict_sent sent read)
  refine ⟨?_, ?_, ?_, ?_, ?_, ?_, link, ?_, ?_, ?_, ?_, ?_⟩
  all_goals first | rw [ctl] | rw [port]
  · exact table
  · exact id
  · exact lapsed
  · exact renewal
  · exact window
  · cases lineBroken l <;> exact settled
  · cases lineBroken l <;> rfl
  · cases lineBroken l <;> rfl
  · cases lineBroken l <;> rfl
  · cases lineBroken l <;> rfl

/-- A LEAVING station that has given back what it held leaves the bus; any other stays (R136, R154). -/
theorem frameEnded_sent (few : y.port.rejectRun < rejectRunLimit) : y.frameEnded l =
    if y.ctl.station = .leaving ∧ (y.frameRead l).ctl.own.active = false then (y.frameRead l).enterConfigured
    else y.frameRead l := by
  have fault : (if lineBroken l then none else (y.frameRead l).port.faultAfter (y.verdict l).part) = none := by
    rw [frameRead_sent_port sent read, verdict_sent sent read]
    cases lineBroken l with
    | true => rfl
    | false =>
      have few : ¬ rejectRunLimit ≤ y.port.rejectRun := Nat.not_le_of_lt few
      simp only [Bool.false_eq_true, if_false, Port.faultAfter, Port.frameOver]
      rw [if_neg (by decide), if_neg few]
  have station : (y.frameRead l).ctl.station = y.ctl.station := y.applyVerdict_station _
  unfold frameEnded leaveBus
  rw [fault, station, verdict_sent sent read]
  simp

end Applied

theorem OwnApplied.enterConfigured {e : State} (h : y.OwnApplied p l e) : y.OwnApplied p l e.enterConfigured :=
  ⟨h.table, h.id, rfl, h.renewal, h.window, h.diverged, h.link, rfl, h.droveReject, h.droveObjection, h.rejectionRun,
    h.rejectRun⟩

theorem OwnApplied.settle {e : State} (h : y.OwnApplied p l e) (other : e.ctl.station ≠ .solo) : y.OwnApplied p l e.settle where
  table := (settle_ctl_table e other).trans h.table
  id := (settle_ctl_id e).trans h.id
  lapsed := (settle_ctl_lapsed e).trans h.lapsed
  renewal := (settle_ctl_renewal e).trans h.renewal
  window := (settle_ctl_window e).trans h.window
  diverged := (settle_ctl_diverged e).trans h.diverged
  link := (settle_link e).trans h.link
  sending := by rw [settle_port, h.sending]
  droveReject := by rw [settle_port, h.droveReject]
  droveObjection := by rw [settle_port, h.droveObjection]
  rejectionRun := by rw [settle_port, h.rejectionRun]
  rejectRun := by rw [settle_port, h.rejectRun]

/-- The own entry that an applied frame leaves. -/
theorem OwnApplied.own {e : State} (h : y.OwnApplied p l e) :
    e.ctl.own = (applyFrame y.ctl.table y.ctl.id p (lineObjectionDominant l)).entry y.ctl.id := by
  rw [Controller.own, h.table, h.id]

section EndFrame

variable (sent : y.ctl.part y.port.sending l = .sent p) (read : lineRejectDominant l = false)
  (settled : (y.port.sending.filter fun a => a.lostEarly l) = none) (few : y.port.rejectRun < rejectRunLimit)
  (on : y.ctl.station.onBus = true)

include sent read settled few on

theorem endFrame_applied : y.OwnApplied p l (y.endFrame l) := by
  have applied := frameRead_applied sent read settled
  have other := frameEnded_station_ne_solo on l
  rw [endFrame_eq]
  rw [frameEnded_sent sent read few] at other ⊢
  split at other
  · rename_i gone
    rw [if_pos gone]
    exact applied.enterConfigured.settle other
  · rename_i stays
    rw [if_neg stays]
    exact applied.settle other

omit settled on in
/-- A station that is not LEAVING stays as it is. -/
theorem endFrame_stays (stays : y.ctl.station ≠ .leaving) : y.endFrame l = (y.frameRead l).settle := by
  rw [endFrame_eq, frameEnded_sent sent read few, if_neg fun h => stays h.1]

omit settled on in
/-- In LEARNING the frame leaves the set, and nothing joins it. -/
theorem endFrame_transmit_learning (hs : y.ctl.station = .learning) :
    (y.endFrame l).ctl.transmit = y.ctl.transmit.afterOwn p := by
  have station : (y.frameRead l).ctl.station = .learning := (y.applyVerdict_station _).trans hs
  rw [endFrame_stays sent read few (by simp [hs]), settle_transmit (by simp [station]) (by simp [station])
    (by simp [station]), frameRead_sent_ctl sent read]
  exact applyFrom_own_transmit y.ctl p _ (by simp [hs])

omit on in
/-- In IN_SERVICE the set is tended. -/
theorem endFrame_tended (hs : y.ctl.station = .inService) : ∃ x : State,
    y.endFrame l = x.tendExcess.tendClaims ∧ x.ctl.id = y.ctl.id ∧
      x.ctl.table = applyFrame y.ctl.table y.ctl.id p (lineObjectionDominant l) ∧
      x.ctl.transmit = { y.ctl.transmit.afterOwn p with
        evict := examineEvicts y.ctl.leaseTicks y.ctl.id x.ctl.table y.ctl.transmit.evict } := by
  have applied := frameRead_applied sent read settled
  have station : (y.frameRead l).ctl.station = .inService := (y.applyVerdict_station _).trans hs
  have ctl : (y.frameRead l).admitted.ctl = (y.frameRead l).ctl := admitted_ctl (by simp [station])
  refine ⟨(y.frameRead l).admitted, ?_, ?_, ?_, ?_⟩
  · rw [endFrame_stays sent read few (by simp [hs]), settle_eq, tendTransmit, ctl, station]
  · rw [ctl, applied.id]
  · rw [ctl, applied.table]
  · rw [ctl, applied.table, frameRead_sent_ctl sent read]
    have examined := applyFrom_own_transmit_inService y.ctl p (lineObjectionDominant l) hs
    rw [TransmitSet.afterOwn_eq] at examined ⊢
    exact examined

/-- A LEAVING station that still holds or waits goes on giving back. -/
theorem endFrame_leaving (hs : y.ctl.station = .leaving) (active : (y.endFrame l).ctl.own.active = true) :
    (y.endFrame l).ctl.station = .leaving ∧ (y.endFrame l).ctl.transmit =
      ⟨y.ctl.transmit.hello && decide (¬ p.kind = 0#3), false,
        (y.ctl.transmit.release && decide (¬ p.kind = 2#3)) || decide (0 < (y.endFrame l).holding), false,
        (y.ctl.transmit.withdraw && decide (¬ p.kind = 5#3)) || (y.endFrame l).ctl.own.waiting.isSome,
        y.ctl.transmit.evict⟩ := by
  have own := (endFrame_applied sent read settled few on).own.trans (frameRead_applied sent read settled).own.symm
  have station : (y.frameRead l).ctl.station = .leaving := (y.applyVerdict_station _).trans hs
  have same : y.endFrame l = (y.frameRead l).settle := by
    rw [endFrame_eq, frameEnded_sent sent read few, if_neg fun h => by simp [← own, active] at h]
  have transmit : (y.frameRead l).ctl.transmit = y.ctl.transmit.afterOwn p := by
    rw [frameRead_sent_ctl sent read]
    exact applyFrom_own_transmit y.ctl p _ (by simp [hs])
  rw [TransmitSet.afterOwn_eq] at transmit
  refine ⟨by rw [same, settle_ctl_station, station], ?_⟩
  rw [State.holding, own, same, settle_transmit_leaving station, tendLeaving_transmit _ (by rw [transmit]), transmit]

/-- One that has given all back enters CONFIGURED. -/
theorem endFrame_gone (hs : y.ctl.station = .leaving) (active : (y.endFrame l).ctl.own.active = false) :
    (y.endFrame l).ctl.station = .configured ∧ (y.endFrame l).ctl.transmit = emptyTransmit := by
  have own := (endFrame_applied sent read settled few on).own.trans (frameRead_applied sent read settled).own.symm
  have same : y.endFrame l = (y.frameRead l).enterConfigured.settle := by
    rw [endFrame_eq, frameEnded_sent sent read few, if_pos ⟨hs, own ▸ active⟩]
  rw [same]
  exact ⟨settle_ctl_station _, settle_transmit nofun nofun nofun⟩

end EndFrame

/-! ### Counted -/

/-- A frame that the station sent or drove at fault, and that is not applied, raises the rejection run by 1. -/
theorem frameRead_counted (none : (y.verdict l).applies = none)
    (part : (∃ p, (y.verdict l).part = .sent p ∧ (y.verdict l).rejected = true) ∨ (y.verdict l).part = .faulted) :
    y.frameRead l = { y with port := if lineBroken l then y.port.frameOver l else
      { y.port.frameOver l with rejectionRun := min rejectionRunLimit (y.port.rejectionRun + 1) } } := by
  have same : y.applyVerdict (y.verdict l) = y := by rw [applyVerdict, none]
  unfold frameRead
  rw [same]
  rcases part with ⟨p, sent, rejected⟩ | faulted
  · simp [Port.countRuns, sent, rejected, Port.frameOver]
  · simp [Port.countRuns, faulted, Port.frameOver]

section Counted

variable (none : (y.verdict l).applies = none)
  (part : (∃ p, (y.verdict l).part = .sent p ∧ (y.verdict l).rejected = true) ∨ (y.verdict l).part = .faulted)

include none part

/-- Below the limit, or broken, the frame leaves the station as it is. -/
theorem endFrame_counted (few : y.port.rejectRun < rejectRunLimit)
    (below : y.port.rejectionRun + 1 < rejectionRunLimit ∨ lineBroken l = true) :
    y.endFrame l = (y.frameRead l).settle := by
  have fault : (if lineBroken l then Option.none else (y.frameRead l).port.faultAfter (y.verdict l).part) = Option.none := by
    cases broken : lineBroken l with
    | true => rfl
    | false =>
      have below := below.resolve_right (by simp [broken])
      have few : ¬ rejectRunLimit ≤ y.port.rejectRun := Nat.not_le_of_lt few
      have run : ¬ rejectionRunLimit ≤ min rejectionRunLimit (y.port.rejectionRun + 1) := by omega
      rw [frameRead_counted none part, broken]
      rcases part with ⟨p, sent, -⟩ | faulted
      · rw [sent]
        simp only [Bool.false_eq_true, if_false, Port.faultAfter, Port.frameOver, if_neg run, if_neg few]
      · rw [faulted]
        simp only [Bool.false_eq_true, if_false, Port.faultAfter, Port.frameOver, if_neg run, if_neg few]
  rw [endFrame_eq, frameEnded, leaveBus, fault, none]
  simp

/-- At the limit the station enters TX_FAULT (R139, R149). -/
theorem endFrame_txFault (limit : rejectionRunLimit ≤ y.port.rejectionRun + 1) (whole : lineBroken l = false) :
    y.endFrame l = ((y.frameRead l).enterFault .txFault).settle := by
  have fault : (if lineBroken l then Option.none else (y.frameRead l).port.faultAfter (y.verdict l).part) =
      some .txFault := by
    have run : rejectionRunLimit ≤ min rejectionRunLimit (y.port.rejectionRun + 1) := by omega
    rw [frameRead_counted none part, whole]
    rcases part with ⟨p, sent, -⟩ | faulted
    · rw [sent]
      simp only [Bool.false_eq_true, if_false, Port.faultAfter, Port.frameOver, if_pos run]
    · rw [faulted]
      simp only [Bool.false_eq_true, if_false, Port.faultAfter, Port.frameOver, if_pos run]
  rw [endFrame_eq, frameEnded, leaveBus, fault]

end Counted

end Sys2Proof.Machine.State

/-! # The own frame as the station hears it (R131, R132, R135, R139) -/

namespace Sys2Proof.Machine

/-! ### The part, at the end of the check field and at the end of the frame -/

/-- The station read every bit up to the end of the check field as it drove it. -/
def Attempt.Remained (a : Attempt) (l : Line) : Prop := ∀ k, 1 ≤ k → k ≤ 49 → lineBit a.line k = lineBit l k

/-- The first bit that it read differently it had driven dominant. -/
def Attempt.Faulted (a : Attempt) (l : Line) : Prop :=
  ∃ k, 1 ≤ k ∧ k ≤ 49 ∧ lineBit a.line k = false ∧ lineBit l k = true ∧
    ∀ j, 1 ≤ j → j < k → lineBit a.line j = lineBit l j

section Arbitration

variable {a : Attempt} {c : Controller} {l m : Line}

theorem Attempt.Remained.congr (h : a.Remained l) (same : ∀ k, k ≤ 49 → lineBit m k = lineBit l k) : a.Remained m :=
  fun k h1 h49 => (h k h1 h49).trans (same k h49).symm

theorem Attempt.Faulted.congr (h : a.Faulted l) (same : ∀ k, k ≤ 49 → lineBit m k = lineBit l k) : a.Faulted m := by
  obtain ⟨k, h1, h49, drove, read, before⟩ := h
  exact ⟨k, h1, h49, drove, (same k h49).trans read, fun j hj hk => (before j hj hk).trans (same j (by omega)).symm⟩

theorem Attempt.Remained.part (h : a.Remained l) : c.part (some a) l = .sent a.payload ∧ a.lostEarly l = false :=
  have none := firstDifference_eq_none_iff.2 h
  ⟨part_of_remained none, lostEarly_of_remained none⟩

theorem Attempt.Faulted.part (h : a.Faulted l) : c.part (some a) l = .faulted ∧ a.lostEarly l = false := by
  obtain ⟨k, h1, h49, drove, read, before⟩ := h
  have first := firstDifference_eq_some h1 h49 (by simp [drove, read]) before
  exact ⟨part_of_faulted first drove, lostEarly_of_faulted first drove⟩

/-- No station both remains in its frame and drives it at fault. -/
theorem Attempt.Remained.not_faulted (h : a.Remained l) : ¬ a.Faulted l := by
  rintro ⟨k, h1, h49, drove, read, -⟩
  exact absurd (h k h1 h49) (by simp [drove, read])

end Arbitration

namespace State

variable {s x y : State} {line l : Line} {a : Attempt}

/-- The line that the station hears reads like the line in every bit of the arbitration. -/
theorem lineBit_hears (s : State) (line : Line) : ∀ k, k ≤ 49 → lineBit (s.hears line) k = lineBit line k :=
  fun _ h => lineBit_heardLine_of_ne _ _ _ (by omega) (by omega) (by omega)

theorem lineBit_checkField (line : Line) : ∀ k, k ≤ 49 → lineBit (lineOfBits (lineUpTo line 50)) k = lineBit line k :=
  fun _ h => lineBit_lineOfBits_lineUpTo line (by omega) (by decide)

theorem checkRead_remained (sending : s.port.sending = some a) (h : a.Remained line) : s.checkRead (lineUpTo line 50) =
    { s.port with
      judgement := if s.ctl.station = .inService then s.ctl.judges (some (s.ctl.id, a.payload)) else none
      droveReject := false
      droveObjection := false } := by
  rw [checkRead, sending, (h.congr (lineBit_checkField line)).part.1]
  simp [Part.carries, Part.rejects, sending]

theorem checkRead_faulted (sending : s.port.sending = some a) (h : a.Faulted line) : s.checkRead (lineUpTo line 50) =
    { s.port with judgement := none, droveReject := true, droveObjection := false } := by
  rw [checkRead, sending, (h.congr (lineBit_checkField line)).part.1]
  simp [Part.carries, Part.rejects, Controller.judges, sending]

/-- A judgement is one of a CLAIM. -/
theorem judges_eq_some_iff {c : Controller} {sender : StationId} {p : Payload} {v : Bool} :
    c.judges (some (sender, p)) = some v ↔
      ∃ (q : BitVec 8) (w : BitVec 4), p = .claim q w ∧ fits c.budget c.table sender q.toNat w.toNat = v := by
  cases p <;> simp [Controller.judges]

section Remained

variable (sending : s.port.sending = some a) (h : a.Remained line)

include sending h

theorem judgement_remained {v : Bool} : (s.checkRead (lineUpTo line 50)).judgement = some v ↔
    s.ctl.station = .inService ∧ ∃ (q : BitVec 8) (w : BitVec 4), a.payload = .claim q w ∧
      fits s.ctl.budget s.ctl.table s.ctl.id q.toNat w.toNat = v := by
  rw [checkRead_remained sending h, ← judges_eq_some_iff]
  by_cases hs : s.ctl.station = .inService <;> simp [hs]

/-- It objects to its own CLAIM where that does not fit (log entry 8). -/
theorem willObject_remained (read : lineRejectDominant line = false) : s.willObject line = true ↔
    s.ctl.station = .inService ∧ ∃ (q : BitVec 8) (w : BitVec 4), a.payload = .claim q w ∧
      fits s.ctl.budget s.ctl.table s.ctl.id q.toNat w.toNat = false := by
  have recessive : lineBit line 50 = true := by simpa [lineRejectDominant] using read
  have reject : (s.checkRead (lineUpTo line 50)).droveReject = false := by rw [checkRead_remained sending h]
  rw [← judgement_remained sending h, willObject, recessive, reject]
  simp only [Bool.and_eq_true, decide_eq_true_eq, Bool.not_false, and_true]
  exact ⟨And.right, fun judged => ⟨((judgement_remained sending h).1 judged).1, judged⟩⟩

theorem hears_remained : s.hears line = heardLine line false (s.willObject line) := by
  rw [hears, checkRead_remained sending h]

end Remained

/-- A station that did not find the reject slot recessive does not object. -/
theorem willObject_rejected (h : lineRejectDominant line = true ∨ (s.checkRead (lineUpTo line 50)).droveReject = true) :
    s.willObject line = false := by
  have dominant : (lineBit line 50 && !(s.checkRead (lineUpTo line 50)).droveReject) = false := by
    rcases h with h | h
    · rw [show lineBit line 50 = false by simpa [lineRejectDominant] using h, Bool.false_and]
    · simp [h]
  rw [willObject, dominant, Bool.and_false]

end State

/-- What the port and the controller are when an own frame ends. -/
structure State.AtEnd (s : State) (line : Line) (y : State) : Prop where
  ctl : y.ctl = s.ctl
  link : y.link = s.link
  sending : y.port.sending = s.port.sending
  rejectionRun : y.port.rejectionRun = s.port.rejectionRun
  rejectRun : y.port.rejectRun = s.port.rejectRun
  judgement : y.port.judgement = (s.checkRead (lineUpTo line 50)).judgement
  droveReject : y.port.droveReject = (s.checkRead (lineUpTo line 50)).droveReject
  droveObjection : y.port.droveObjection = s.willObject line

theorem State.Heard.atEnd {s y : State} {heard : List Bool} {line : Line} (h : s.Heard (s.heardPort line) heard y) :
    s.AtEnd line y := by
  obtain ⟨d, k, rfl⟩ := h
  exact ⟨rfl, rfl, rfl, rfl, rfl, rfl, rfl, rfl⟩

namespace State

variable {s y : State} {line : Line} {a : Attempt}

/-- The copy disagrees with the station's own CLAIM where that fits it and another station objects (R116). -/
theorem AtEnd.claimDiffers_iff (h : s.AtEnd line y) (sending : s.port.sending = some a) (remained : a.Remained line)
    (read : lineRejectDominant line = false) : y.claimDiffers a.payload (lineObjectionDominant (s.hears line)) = true ↔
      s.ctl.station = .inService ∧ lineObjectionDominant line = true ∧ ∃ (q : BitVec 8) (w : BitVec 4),
        a.payload = .claim q w ∧ fits s.ctl.budget s.ctl.table s.ctl.id q.toNat w.toNat = true := by
  rw [claimDiffers, h.judgement, Bool.and_eq_true, decide_eq_true_eq, decide_eq_true_eq, judgement_remained sending remained,
    hears_remained sending remained, lineObjectionDominant_heardLine]
  have objects := willObject_remained sending remained read
  constructor
  · rintro ⟨-, hs, q, w, claim, fit⟩
    cases fits' : fits s.ctl.budget s.ctl.table s.ctl.id q.toNat w.toNat with
    | false =>
      have drove := objects.2 ⟨hs, q, w, claim, fits'⟩
      simp [fits', drove] at fit
    | true =>
      have leaves : s.willObject line = false := Bool.eq_false_iff.2 fun drove => by
        obtain ⟨-, q', w', claim', unfit⟩ := objects.1 drove
        obtain ⟨rfl, rfl⟩ := Payload.claim.inj (claim.symm.trans claim')
        simp [fits'] at unfit
      exact ⟨hs, by simpa [fits', leaves] using fit.symm, q, w, claim, fits'⟩
  · rintro ⟨hs, objected, q, w, claim, fit⟩
    exact ⟨by rw [claim]; rfl, hs, q, w, claim, by rw [fit, objected, Bool.true_or]⟩

/-- Where another entry waits while H is above N, settling queues RELEASE. -/
theorem otherWaiting_iff {t : PerStation Entry} {own : StationId} :
    otherWaiting t own = true ↔ ∃ k, k ≠ own ∧ (t.entry k).waiting ≠ none := by
  simp [otherWaiting, mem_idsBut, Option.isSome_iff_ne_none]

/-- What the obligation says of an IN_SERVICE station's transmit set. -/
theorem tended_transmit {x : State} {set : TransmitSet} {p : Payload} {evict : PerStation (Option (BitVec 4))}
    (tended : x.ctl.transmit = { set.afterOwn p with evict := evict }) :
    (x.tendExcess.tendClaims.ctl.transmit.hello = true ↔ set.hello = true ∧ ¬ p.kind = 0#3) ∧
    x.tendExcess.tendClaims.ctl.transmit.renew = false ∧
    x.tendExcess.tendClaims.ctl.transmit.claim = x.tendExcess.tendClaims.claimNeeded ∧
    (x.tendExcess.tendClaims.ctl.transmit.withdraw = true ↔ (set.withdraw = true ∧ ¬ p.kind = 5#3) ∨
      (x.tendExcess.tendClaims.ctl.own.waiting ≠ none ∧ x.tendExcess.tendClaims.claimNeeded = false)) ∧
    (x.tendExcess.tendClaims.ctl.transmit.release = true ↔ (set.release = true ∧ ¬ p.kind = 2#3) ∨
      (x.tendExcess.tendClaims.need < x.tendExcess.tendClaims.holding ∧
        ∃ k, k ≠ x.ctl.id ∧ (x.ctl.table.entry k).waiting ≠ none)) ∧
    x.tendExcess.tendClaims.ctl.transmit.evict = evict := by
  rw [TransmitSet.afterOwn_eq] at tended
  have excess := x.tendExcess_transmit (by rw [tended])
  rw [tended] at excess
  have claims : x.tendExcess.tendClaims.ctl.transmit = { x.tendExcess.ctl.transmit with
      claim := x.tendExcess.tendClaims.claimNeeded
      withdraw := x.tendExcess.ctl.transmit.withdraw ||
        (x.tendExcess.tendClaims.ctl.own.waiting.isSome && !x.tendExcess.tendClaims.claimNeeded) } := rfl
  have need : x.tendExcess.tendClaims.need = x.need := x.tendExcess_need
  have holding : x.tendExcess.tendClaims.holding = x.holding := x.tendExcess_holding
  rw [claims, excess, need, holding, ← otherWaiting_iff]
  simp [Option.isSome_iff_ne_none]

/-- A station with its gate closed for good has ordered a pause of what runs (R96, R149). -/
theorem settle_pauses {x : State} (closed : x.ctl.mayDraw = false) (b : BankId) (run : (x.settle.bank b).hostRunning = true) :
    (x.settle.bank b).pauseOrder = true := by
  refine (settle_ordered x b run).resolve_left ?_
  simp [gateAdmits, mayDraw_congr (settle_ctl_station x) (settle_ctl_lapsed x), closed]

end State

end Sys2Proof.Machine

/-! # The own frame is applied or counted (R136, R139, R149) -/

namespace Sys2Proof.Machine

variable {s y : State} {line : Line} {a : Attempt}

section Applied

variable (heard : s.AtEnd line y) (sending : s.port.sending = some a) (remained : a.Remained line)
  (unrejected : lineRejectDominant line = false)

include heard sending

theorem settled_of_remained (remained : a.Remained line) :
    (y.port.sending.filter fun a => a.lostEarly (s.hears line)) = none := by
  have early : a.lostEarly (s.hears line) = false := ((remained.congr (State.lineBit_hears s line)).part (c := s.ctl)).2
  simp [heard.sending, sending, early]

theorem settled_of_faulted (faulted : a.Faulted line) :
    (y.port.sending.filter fun a => a.lostEarly (s.hears line)) = none := by
  have early : a.lostEarly (s.hears line) = false := ((faulted.congr (State.lineBit_hears s line)).part (c := s.ctl)).2
  simp [heard.sending, sending, early]

/-- It sent the frame that it read as it drove it. -/
theorem part_sent (remained : a.Remained line) : y.ctl.part y.port.sending (s.hears line) = .sent a.payload := by
  rw [heard.sending, sending]
  exact (remained.congr (State.lineBit_hears s line)).part.1

include remained unrejected

omit heard in
theorem unrejected_hears : lineRejectDominant (s.hears line) = false := by
  rw [State.hears_remained sending remained, lineRejectDominant_heardLine, unrejected, Bool.or_false]

omit heard in
/-- The objection slot reads dominant where the line does, or where the station objects to its own CLAIM (log entry 8). -/
theorem objection_hears : lineObjectionDominant (s.hears line) = true ↔ lineObjectionDominant line = true ∨
    (s.ctl.station = .inService ∧ ∃ (q : BitVec 8) (w : BitVec 4), a.payload = .claim q w ∧
      fits s.ctl.budget s.ctl.table s.ctl.id q.toNat w.toNat = false) := by
  rw [State.hears_remained sending remained, lineObjectionDominant_heardLine, Bool.or_eq_true,
    State.willObject_remained sending remained unrejected]

/-- What the frame's end leaves in every state that is on the bus. -/
theorem ownFrame_applied (on : s.ctl.station.onBus = true) (few : s.port.rejectRun < 8) :
    y.OwnApplied a.payload (s.hears line) (y.endFrame (s.hears line)) :=
  State.endFrame_applied (part_sent heard sending remained) (unrejected_hears sending remained unrejected)
    (settled_of_remained heard sending remained) (heard.rejectRun ▸ few) (heard.ctl ▸ on)

end Applied

section Counted

variable (heard : s.AtEnd line y) (sending : s.port.sending = some a)
  (counted : a.Remained line ∧ lineRejectDominant line = true ∨ a.Faulted line)

include heard sending counted

theorem settled_of_counted : (y.port.sending.filter fun a => a.lostEarly (s.hears line)) = none :=
  counted.elim (fun h => settled_of_remained heard sending h.1) (settled_of_faulted heard sending)

omit heard in
theorem droveReject_of_counted : (s.checkRead (lineUpTo line 50)).droveReject = true ↔ a.Faulted line := by
  rcases counted with ⟨remained, -⟩ | faulted
  · simp [State.checkRead_remained sending remained, remained.not_faulted]
  · simp [State.checkRead_faulted sending faulted, faulted]

omit heard in
theorem willObject_of_counted : s.willObject line = false :=
  State.willObject_rejected (counted.imp And.right (droveReject_of_counted sending counted).2)

/-- Where another station rejects the frame, or the station drove it at fault, it is counted and not applied. -/
theorem verdict_of_counted : (y.verdict (s.hears line)).applies = none ∧
    ((∃ p, (y.verdict (s.hears line)).part = .sent p ∧ (y.verdict (s.hears line)).rejected = true) ∨
      (y.verdict (s.hears line)).part = .faulted) := by
  rcases counted with ⟨remained, rejected⟩ | faulted
  · have dominant : lineRejectDominant (s.hears line) = true := by
      rw [State.hears, lineRejectDominant_heardLine, rejected, Bool.true_or]
    exact ⟨by simp [State.verdict, dominant], .inl ⟨a.payload, part_sent heard sending remained, dominant⟩⟩
  · have part : y.ctl.part y.port.sending (s.hears line) = .faulted := by
      rw [heard.sending, sending]
      exact (faulted.congr (State.lineBit_hears s line)).part.1
    exact ⟨by simp [State.verdict, part, Part.carries], .inr part⟩

/-- The frame read, uncounted or counted, with nothing left to send. -/
theorem frameRead_of_counted : y.frameRead (s.hears line) = { y with port := { y.port with
    framing := .outOfFrame
    recessiveCount := lineClosingRecessive (s.hears line)
    sending := none
    rejectionRun := if lineBroken line then s.port.rejectionRun else min rejectionRunLimit (s.port.rejectionRun + 1) } } := by
  obtain ⟨none, part⟩ := verdict_of_counted heard sending counted
  have broken : lineBroken (s.hears line) = lineBroken line := lineBroken_heardLine line _ _
  rw [State.frameRead_counted none part, Port.frameOver, settled_of_counted heard sending counted, broken,
    ← heard.rejectionRun]
  cases lineBroken line <;> rfl

/-- Below the limit, or broken, the frame leaves the station as it is. -/
theorem ownFrame_counted (few : s.port.rejectRun < 8) (below : s.port.rejectionRun < 15 ∨ lineBroken line = true) :
    y.endFrame (s.hears line) = (y.frameRead (s.hears line)).settle := by
  obtain ⟨none, part⟩ := verdict_of_counted heard sending counted
  refine State.endFrame_counted none part (heard.rejectRun ▸ few) (below.imp (fun below => ?_) fun broken => ?_)
  · rw [heard.rejectionRun]
    exact Nat.succ_lt_succ below
  · exact (lineBroken_heardLine line _ _).trans broken

/-- At the limit the station enters TX_FAULT. -/
theorem ownFrame_txFault (limit : 15 ≤ s.port.rejectionRun) (whole : lineBroken line = false) :
    y.endFrame (s.hears line) = ((y.frameRead (s.hears line)).enterFault .txFault).settle := by
  obtain ⟨none, part⟩ := verdict_of_counted heard sending counted
  refine State.endFrame_txFault none part ?_ ((lineBroken_heardLine line _ _).trans whole)
  rw [heard.rejectionRun]
  exact Nat.succ_le_succ limit

end Counted

/-! ### What the end of a counted frame leaves -/

/-- What a counted frame leaves of the port, whether or not the station then enters TX_FAULT. -/
structure OwnCounted (s : State) (line : Line) (e : State) : Prop where
  sending : e.port.sending = none
  droveReject : e.port.droveReject = (s.checkRead (lineUpTo line 50)).droveReject
  droveObjection : e.port.droveObjection = s.willObject line
  rejectRun : e.port.rejectRun = s.port.rejectRun
  rejectionRun : e.port.rejectionRun =
    if lineBroken line then s.port.rejectionRun else min rejectionRunLimit (s.port.rejectionRun + 1)
  framing : e.port.framing = .outOfFrame

theorem ownCounted (heard : s.AtEnd line y) (sending : s.port.sending = some a)
    (counted : a.Remained line ∧ lineRejectDominant line = true ∨ a.Faulted line) (few : s.port.rejectRun < 8) :
    OwnCounted s line (y.endFrame (s.hears line)) := by
  have read := frameRead_of_counted heard sending counted
  by_cases below : s.port.rejectionRun < 15 ∨ lineBroken line = true
  · rw [ownFrame_counted heard sending counted few below, read]
    constructor <;> rw [State.settle_port]
    · exact heard.droveReject
    · exact heard.droveObjection
    · exact heard.rejectRun
  · simp only [not_or, Nat.not_lt, Bool.not_eq_true] at below
    rw [ownFrame_txFault heard sending counted below.1 below.2, read]
    constructor <;> rw [State.settle_port]
    · rfl
    · exact heard.droveReject
    · exact heard.droveObjection
    · exact heard.rejectRun
    · rfl
    · rfl

/-- What entering TX_FAULT leaves (R149). -/
structure InTxFault (s e : State) : Prop where
  station : e.ctl.station = .txFault
  transmit : e.ctl.transmit = emptyTransmit
  own : e.ctl.own = { s.ctl.own with held := 0, waiting := none }
  others : ∀ k, k ≠ s.ctl.id → e.ctl.table.entry k = s.ctl.table.entry k
  lapsed : e.ctl.lapsed = false
  window : e.ctl.window = none
  link : e.link = { s.link with stationNews := true }
  pauses : ∀ b, (e.bank b).hostRunning = true → (e.bank b).pauseOrder = true

theorem enterTxFault_settle (x : State) : InTxFault x (x.enterFault .txFault).settle := by
  have table := State.settle_ctl_table (x.enterFault .txFault) (by simp [State.enterFault])
  exact {
    station := State.settle_ctl_station _
    transmit := State.settle_transmit nofun nofun nofun
    own := by
      rw [Controller.own, table, State.settle_ctl_id]
      exact Controller.setOwn_own x.ctl _
    others := fun k hk => by
      rw [table]
      exact PerStation.entry_put_other _ hk _
    lapsed := State.settle_ctl_lapsed _
    window := State.settle_ctl_window _
    link := State.settle_link _
    pauses := State.settle_pauses rfl }

theorem ownFrame_inTxFault (heard : s.AtEnd line y) (sending : s.port.sending = some a)
    (counted : a.Remained line ∧ lineRejectDominant line = true ∨ a.Faulted line) (limit : 15 ≤ s.port.rejectionRun)
    (whole : lineBroken line = false) : InTxFault s (y.endFrame (s.hears line)) := by
  have entered := enterTxFault_settle (y.frameRead (s.hears line))
  rw [← ownFrame_txFault heard sending counted limit whole] at entered
  have ctl : (y.frameRead (s.hears line)).ctl = s.ctl := by
    rw [frameRead_of_counted heard sending counted]
    exact heard.ctl
  have link : (y.frameRead (s.hears line)).link = s.link := by
    rw [frameRead_of_counted heard sending counted]
    exact heard.link
  obtain ⟨station, transmit, own, others, lapsed, window, news, pauses⟩ := entered
  rw [ctl] at own others
  rw [link] at news
  exact ⟨station, transmit, own, others, lapsed, window, news, pauses⟩

/-- Settles O52: the bits up to the end of the check field fix the station's part, and the frame's end applies or counts it. -/
theorem ownFrameIsAppliedOrCounted : Obligations.OwnFrameIsAppliedOrCounted := by
  intro s line a live on framing sending start few
  obtain ⟨y, read, run⟩ := State.exec_frameEnd_heard live on framing start
  have heard := read.atEnd
  refine ⟨fun remained unrejected => ?applied, fun counted => ?counted⟩
  case applied =>
    have applied := ownFrame_applied heard sending remained unrejected on few
    have sent := part_sent heard sending remained
    have taken := unrejected_hears sending remained unrejected
    have settled := settled_of_remained heard sending remained
    have few' : y.port.rejectRun < rejectRunLimit := heard.rejectRun ▸ few
    have on' : y.ctl.station.onBus = true := heard.ctl ▸ on
    have differs := heard.claimDiffers_iff sending remained unrejected
    have ctl := heard.ctl
    have link := heard.link
    refine ⟨y.endFrame (s.hears line), lineObjectionDominant (s.hears line), run,
      objection_hears sending remained unrejected, ctl ▸ applied.table, ?_, ?_, fun h => ⟨?_, ?_⟩, fun h => ⟨?_, ?_⟩, ?_,
      applied.rejectRun.trans heard.rejectRun, applied.sending, applied.lapsed, applied.renewal, ctl ▸ applied.window,
      fun stays => ?_, fun hs => ?learning, fun hs => ?inService, fun hs => ⟨fun active => ?leaving, fun given => ?gone⟩⟩
    · rw [applied.droveObjection, heard.droveObjection, State.willObject_remained sending remained unrejected]
    · rw [applied.droveReject, heard.droveReject, State.checkRead_remained sending remained]
    · rw [applied.diverged, differs.2 h, Bool.or_true]
    · rw [applied.link, if_pos (differs.2 h), link, ctl]
    · rw [applied.diverged, Bool.eq_false_iff.2 (mt differs.1 h), Bool.or_false, ctl]
    · rw [applied.link, if_neg (mt differs.1 h), link]
    · rw [applied.rejectionRun, heard.rejectionRun]
      exact congrArg (if · then s.port.rejectionRun else 0) (lineBroken_heardLine line _ _)
    · rw [State.endFrame_stays sent taken few' (ctl ▸ stays), State.settle_ctl_station, ← ctl]
      exact y.applyVerdict_station _
    case learning =>
      rw [State.endFrame_transmit_learning sent taken few' (ctl ▸ hs), TransmitSet.afterOwn_eq, ctl]
    case inService =>
      obtain ⟨x, same, id, table, transmit⟩ := State.endFrame_tended sent taken settled few' (ctl ▸ hs)
      have tableEnd : x.ctl.table = (y.endFrame (s.hears line)).ctl.table := table.trans applied.table.symm
      obtain ⟨hello, renew, claim, withdraw, release, evict⟩ := State.tended_transmit transmit
      rw [← same] at hello renew claim withdraw release evict
      rw [tableEnd, id] at release
      rw [tableEnd] at evict
      rw [ctl] at hello withdraw release evict
      exact ⟨hello, renew, claim, withdraw, release, evict⟩
    case leaving =>
      have left := State.endFrame_leaving sent taken settled few' on' (ctl ▸ hs) active
      rwa [ctl] at left
    case gone => exact State.endFrame_gone sent taken settled few' on' (ctl ▸ hs) given
  case counted =>
    obtain ⟨done, reject, objection, rejectRun, rejectionRun, outOfFrame⟩ := ownCounted heard sending counted few
    refine ⟨y.endFrame (s.hears line), run, done, ?_, rejectRun, fun whole => ?_, fun broken => ?_, fun below => ?_,
      fun limit whole => ?_⟩
    · rw [reject, droveReject_of_counted sending counted]
      exact Iff.rfl
    · rw [rejectionRun, whole]
      rfl
    · rw [rejectionRun, broken]
      rfl
    · have ctl : (y.frameRead (s.hears line)).ctl = s.ctl := by
        rw [frameRead_of_counted heard sending counted]
        exact heard.ctl
      rw [ownFrame_counted heard sending counted few below, State.settle_ctl_station, State.settle_ctl_table, ctl]
      · exact ⟨rfl, rfl⟩
      · rw [ctl]
        exact fun solo => absurd on (by simp [solo, StationState.onBus])
    · obtain ⟨station, transmit, own, others, lapsed, window, news, pauses⟩ :=
        ownFrame_inTxFault heard sending counted limit whole
      exact ⟨station, transmit, own, others, lapsed, window, news, outOfFrame,
        objection.trans (willObject_of_counted sending counted), pauses⟩

end Sys2Proof.Machine

/-! # Ranks, totals and frames of the budget table

The precedent waiter is the first in one strict order of the waiting entries, the fit rule weighs a claim against it, and each applied
frame writes the entries of its sender and, for an EVICT, of its target (R105 to R118). -/

namespace Sys2Proof.Machine

/-! ### The precedent waiter (R113) -/

/-- A waiter of a higher level, or of the same level and a lower id. -/
def Precedes (t : PerStation Entry) (p k : StationId) : Prop :=
  (t.entry k).level < (t.entry p).level ∨ ((t.entry k).level = (t.entry p).level ∧ p.toNat < k.toNat)

/-- A waiter of some entries that precedes every other waiter of them. -/
def RanksFirst (t : PerStation Entry) (ids : List StationId) (p : StationId) : Prop :=
  p ∈ ids ∧ (t.entry p).waiting ≠ none ∧ ∀ k ∈ ids, k ≠ p → (t.entry k).waiting ≠ none → Precedes t p k

section Precedence

variable {t : PerStation Entry} {ids : List StationId} {p q k : StationId}

theorem Precedes.asymm (h : Precedes t p q) : ¬ Precedes t q p := by
  unfold Precedes at *
  omega

theorem RanksFirst.unique (hp : RanksFirst t ids p) (hq : RanksFirst t ids q) : p = q := by
  obtain ⟨memp, waitp, firstp⟩ := hp
  obtain ⟨memq, waitq, firstq⟩ := hq
  by_contra other
  exact (firstp q memq (Ne.symm other) waitq).asymm (firstq p memp other waitp)

theorem Entry.level_of_waiting {e : Entry} {w : Waiting} (h : e.waiting = some w) : e.level = w.level := by
  simp [Entry.level, h]

theorem precedentAmong_eq_none_iff : precedentAmong t ids = none ↔ ∀ k ∈ ids, (t.entry k).waiting = none := by
  induction ids with
  | nil => simp [precedentAmong]
  | cons k ks ih =>
    rw [precedentAmong, List.forall_mem_cons, ← ih]
    cases (t.entry k).waiting with
    | none => simp
    | some w =>
      cases precedentAmong t ks with
      | none => simp
      | some r => by_cases higher : w.level < (t.entry r).level <;> simp [higher]

/-- In rising order, a later waiter takes the place of an earlier one only at a higher level. -/
theorem ranksFirst_of_precedentAmong (rising : ids.Pairwise fun a b => a.toNat < b.toNat)
    (h : precedentAmong t ids = some p) : RanksFirst t ids p := by
  induction ids generalizing p with
  | nil => cases h
  | cons k ks ih =>
    obtain ⟨lowest, rising⟩ := List.pairwise_cons.1 rising
    rw [precedentAmong] at h
    cases waiting : (t.entry k).waiting with
    | none =>
      rw [waiting] at h
      obtain ⟨mem, waits, first⟩ := ih rising h
      exact ⟨List.mem_cons_of_mem k mem, waits, List.forall_mem_cons.2 ⟨fun _ waits => absurd waiting waits, first⟩⟩
    | some w =>
      rw [waiting] at h
      have level := Entry.level_of_waiting waiting
      have waits : (t.entry k).waiting ≠ none := by simp [waiting]
      cases rest : precedentAmong t ks with
      | none =>
        rw [rest] at h
        obtain rfl := Option.some.inj h
        have alone := precedentAmong_eq_none_iff.1 rest
        exact ⟨List.mem_cons_self, waits, List.forall_mem_cons.2 ⟨fun other => absurd rfl other,
          fun j mem _ waits => absurd (alone j mem) waits⟩⟩
      | some r =>
        rw [rest] at h
        obtain ⟨mem, waitsr, first⟩ := ih rising rest
        by_cases higher : w.level < (t.entry r).level
        · obtain rfl := Option.some.inj ((if_pos higher).symm.trans h)
          exact ⟨List.mem_cons_of_mem k mem, waitsr, List.forall_mem_cons.2 ⟨fun _ _ => .inl (level ▸ higher), first⟩⟩
        · obtain rfl := Option.some.inj ((if_neg higher).symm.trans h)
          refine ⟨List.mem_cons_self, waits, List.forall_mem_cons.2 ⟨fun other => absurd rfl other, fun j mem _ waits => ?_⟩⟩
          have later := lowest j mem
          by_cases same : j = r
          · subst same
            unfold Precedes
            omega
          · have behind := first j mem same waits
            unfold Precedes at *
            omega

theorem precedentAmong_eq_some_iff (rising : ids.Pairwise fun a b => a.toNat < b.toNat) :
    precedentAmong t ids = some p ↔ RanksFirst t ids p := by
  refine ⟨ranksFirst_of_precedentAmong rising, fun first => ?_⟩
  obtain ⟨mem, waits, -⟩ := id first
  cases h : precedentAmong t ids with
  | none => exact absurd (precedentAmong_eq_none_iff.1 h p mem) waits
  | some q => rw [first.unique (ranksFirst_of_precedentAmong rising h)]

theorem stationIds_rising : stationIds.Pairwise fun a b => a.toNat < b.toNat := by decide

theorem idsBut_rising (s : StationId) : (idsBut s).Pairwise fun a b => a.toNat < b.toNat := stationIds_rising.filter _

theorem precedentOther_eq_none_iff {s : StationId} :
    precedentOther t s = none ↔ ∀ k, k ≠ s → (t.entry k).waiting = none := by
  simp [precedentOther, precedentAmong_eq_none_iff, mem_idsBut]

end Precedence

/-- Offset 5 of the budget view (R122). -/
theorem State.budgetView_precedent (x : State) : x.budgetView[5]? = some (match precedentWaiter x.ctl.table with
    | none => 0xFF#8
    | some k => BitVec.ofNat 8 k.toNat) := by
  show some (optByte 0xFF#8 ((precedentWaiter x.ctl.table).map BitVec.toNat)) = _
  cases precedentWaiter x.ctl.table <;> rfl

/-- Settles O42: among ids in rising order the precedent waiter is the one that ranks first. -/
theorem precedentWaiterRanksFirst : Obligations.PrecedentWaiterRanksFirst := by
  intro t s
  refine ⟨?_, fun p => ?_, precedentOther_eq_none_iff, fun p => ?_, State.otherWaiting_iff, fun x hx => hx ▸ x.budgetView_precedent⟩
  · simp [precedentWaiter, precedentAmong_eq_none_iff, mem_stationIds]
  · rw [precedentWaiter, precedentAmong_eq_some_iff stationIds_rising]
    simp [RanksFirst, Precedes, mem_stationIds]
  · rw [precedentOther, precedentAmong_eq_some_iff (idsBut_rising s)]
    simp only [RanksFirst, Precedes, mem_idsBut]
    exact ⟨fun ⟨mem, waits, first⟩ => ⟨mem, waits, fun k hp hs => first k hs hp⟩,
      fun ⟨mem, waits, first⟩ => ⟨mem, waits, fun k hs hp => first k hp hs⟩⟩

/-! ### Totals and the fit rule (R101, R114) -/

section Fit

variable {budget q w : Nat} {t : PerStation Entry} {s : StationId}

/-- The table total is what one station holds and what the others hold. -/
theorem tableTotal_eq (t : PerStation Entry) (s : StationId) : tableTotal t = (t.entry s).held + heldSum t (idsBut s) := by
  have distinct : stationIds.Nodup := by decide
  have split : stationIds.Perm (s :: idsBut s) := by
    rw [idsBut, ← distinct.erase_eq_filter]
    exact List.perm_cons_erase (mem_stationIds s)
  exact (split.map fun k => (t.entry k).held).sum_eq

/-- What the others hold does not rest on the station's own entry. -/
theorem heldSum_put (t : PerStation Entry) (s : StationId) (e : Entry) :
    heldSum (t.put s e) (idsBut s) = heldSum t (idsBut s) :=
  congrArg List.sum (List.map_congr_left fun _ mem =>
    congrArg Entry.held (PerStation.entry_put_other t (mem_idsBut.1 mem) e))

theorem tableTotal_put (t : PerStation Entry) (s : StationId) (e : Entry) :
    tableTotal (t.put s e) = e.held + heldSum t (idsBut s) := by
  rw [tableTotal_eq _ s, PerStation.entry_put, heldSum_put]

theorem le_freeUnits_iff : (q : Int) ≤ freeUnits budget t s ↔ q + heldSum t (idsBut s) ≤ budget := by
  unfold freeUnits
  omega

theorem ranksOrLeavesRoom_iff : ranksOrLeavesRoom budget t s q w = true ↔
    precedentOther t s = none ∨ ∃ p, precedentOther t s = some p ∧
      ((t.entry p).level < w ∨ (w = (t.entry p).level ∧ s.toNat < p.toNat) ∨
        q + (t.entry p).requested + heldSum t (idsBut s) ≤ budget + (t.entry p).held) := by
  unfold ranksOrLeavesRoom
  cases precedentOther t s with
  | none => simp
  | some p =>
    have room : (q : Int) + shortfall (t.entry p) ≤ freeUnits budget t s ↔
        q + (t.entry p).requested + heldSum t (idsBut s) ≤ budget + (t.entry p).held := by
      unfold shortfall freeUnits
      omega
    simp [room, or_assoc]

theorem fits_iff : fits budget t s q w = true ↔
    q ≤ (t.entry s).held ∨ (q + heldSum t (idsBut s) ≤ budget ∧ ranksOrLeavesRoom budget t s q w = true) := by
  simp [fits, le_freeUnits_iff]

theorem tableTotal_granted (t : PerStation Entry) (s : StationId) (level : BitVec 4) (total : BitVec 8) :
    tableTotal (applyFrame t s (.claim total level) false) = total.toNat + heldSum t (idsBut s) :=
  tableTotal_put t s _

end Fit

/-- Settles O43: by the two conditions, the second of which keeps the total within B, as the first does where it was. -/
theorem claimFitsByTheFitRule : Obligations.ClaimFitsByTheFitRule := by
  intro budget t s q w
  have others : ((stationIds.filter fun k => k ≠ s).map fun k => (t.entry k).held).sum = heldSum t (idsBut s) := by
    unfold heldSum idsBut
    congr 3
    funext k
    by_cases same : k = s <;> simp [same]
  dsimp only
  rw [others]
  refine ⟨?_, fun level total fit within => ?_⟩
  · rw [fits_iff, ranksOrLeavesRoom_iff]
  · rw [tableTotal_granted]
    rw [tableTotal_eq t s] at within
    rcases fits_iff.1 fit with less | ⟨free, -⟩ <;> omega

/-! ### Applied frames (R105 to R112) -/

section Applied

variable {t : PerStation Entry} {s k : StationId} {p : Payload} {objected : Bool}

/-- Any frame but an EVICT writes its sender's entry alone. -/
theorem applyFrame_eq_put (h : ∀ target g, p ≠ .evict target g) :
    applyFrame t s p objected = t.put s ((t.entry s).applied p objected) := by
  cases p with
  | evict target g => exact absurd rfl (h target g)
  | _ => rfl

theorem applyFrame_entry_sender (h : ∀ target g, p ≠ .evict target g) :
    (applyFrame t s p objected).entry s = (t.entry s).applied p objected := by
  rw [applyFrame_eq_put h, PerStation.entry_put]

theorem applyFrame_entry_other (h : ∀ target g, p ≠ .evict target g) (other : k ≠ s) :
    (applyFrame t s p objected).entry k = t.entry k := by
  rw [applyFrame_eq_put h, PerStation.entry_put_other t other]

/-- A RELEASE of no less than the entry asks for ends its wait (R108). -/
theorem Entry.applied_release_covers {e : Entry} {total : BitVec 8}
    (covered : e.waiting = none ∨ ∃ w, e.waiting = some w ∧ w.requested ≤ total.toNat) :
    e.applied (.release total) objected = { e.heard.advanced with held := total.toNat, waiting := none } := by
  have ends : (e.waiting.filter fun w => decide (total.toNat < w.requested)) = none := by
    rcases covered with none | ⟨w, waiting, covers⟩
    · rw [none]
      rfl
    · simp [waiting, covers]
  rw [applied, ends]

/-- A RELEASE of less leaves it waiting (R108). -/
theorem Entry.applied_release_falls_short {e : Entry} {total : BitVec 8} {w : Waiting} (waiting : e.waiting = some w)
    (short : total.toNat < w.requested) :
    e.applied (.release total) objected = { e.heard.advanced with held := total.toNat } := by
  have stands : (e.waiting.filter fun w => decide (total.toNat < w.requested)) = e.waiting := by simp [waiting, short]
  rw [applied, stands]
  rfl

end Applied

/-- Settles O44, by the kinds of a frame. -/
theorem appliedFrameChangesItsSendersEntry : Obligations.AppliedFrameChangesItsSendersEntry := by
  intro t s objected
  have sender (p : Payload) (h : ∀ target g, p ≠ .evict target g) :
      (applyFrame t s p objected).entry s = (t.entry s).applied p objected := applyFrame_entry_sender h
  exact ⟨fun nonce => sender _ fun _ _ => nofun,
    fun q w granted => (sender (.claim q w) fun _ _ => nofun).trans (by rw [granted]; rfl),
    fun q w refused => (sender (.claim q w) fun _ _ => nofun).trans (by rw [refused]; rfl),
    fun total covered => (sender (.release total) fun _ _ => nofun).trans (Entry.applied_release_covers covered),
    fun total w waiting short => (sender (.release total) fun _ _ => nofun).trans (Entry.applied_release_falls_short waiting short),
    fun held q w => sender _ fun _ _ => nofun, sender _ fun _ _ => nofun, fun p k other h => applyFrame_entry_other h other⟩

/-! ### EVICTs (R110, R117, R118) -/

section Evict

variable {t : PerStation Entry} {x target k : StationId} {g : BitVec 4} {objected : Bool} {e : Entry}

theorem applyFrame_evict (t : PerStation Entry) (different : target ≠ x) (g : BitVec 4) (objected : Bool) :
    applyFrame t x (.evict target g) objected =
      (t.put x (t.entry x).heard).put target ((t.entry target).evicted g) := by
  show PerStation.put _ target (((t.put x (t.entry x).heard).entry target).evicted g) = _
  rw [PerStation.entry_put_other t different]
  rfl

theorem Entry.evicted_effective (generation : e.generation = g) (active : e.active = true) :
    e.evicted g = { e with held := 0, waiting := none, generation := e.generation + 1#4, age := 0 } :=
  if_pos (by simp [evictEffective, generation, active])

theorem Entry.evicted_stale (h : e.generation ≠ g ∨ e.active = false) : e.evicted g = { e with age := 0 } :=
  if_neg (by rcases h with h | h <;> simp [evictEffective, h])

theorem examineEvicts_entry (lease : Nat) (own : StationId) (t : PerStation Entry)
    (pending : PerStation (Option (BitVec 4))) (k : StationId) : (examineEvicts lease own t pending).entry k =
      if k = own then none else evictAfter lease (t.entry k) (pending.entry k) := by
  simp [examineEvicts, PerStation.entry]

/-- A pending EVICT that agrees with an entry that holds or waits is kept. -/
theorem evictAfter_kept (lease : Nat) (active : e.active = true) : evictAfter lease e (some e.generation) = some e.generation := by
  simp [evictAfter, evictStale, active, Option.filter]

/-- Any other pending EVICT is removed, and one is queued where it is due. -/
theorem evictAfter_of_ne (lease : Nat) {pending : Option (BitVec 4)} (active : e.active = true)
    (other : pending ≠ some e.generation) : evictAfter lease e pending = if lease < e.age then some e.generation else none := by
  have removed : (pending.filter fun g => !evictStale e g) = none := by
    refine Option.filter_eq_none_iff.2 fun g hg => ?_
    have stale : e.generation ≠ g := fun same => other (by rw [hg, same])
    simp [evictStale, stale]
  simp [evictAfter, removed, evictDue, active]

/-- No EVICT is kept or queued of an entry that neither holds nor waits. -/
theorem evictAfter_inactive (lease : Nat) (pending : Option (BitVec 4)) (inactive : e.active = false) :
    evictAfter lease e pending = none := by
  have removed : (pending.filter fun g => !evictStale e g) = none :=
    Option.filter_eq_none_iff.2 fun g _ => by simp [evictStale, inactive]
  simp [evictAfter, removed, evictDue, inactive]

end Evict

/-- Settles O45, by the entry's generation and by whether it holds or waits. -/
theorem evictsAreAppliedAndExamined : Obligations.EvictsAreAppliedAndExamined := by
  intro t target
  dsimp only
  rw [← Entry.active_iff, Bool.not_eq_true]
  refine ⟨fun x g objected different => ?applied, fun lease own pending => ?examined⟩
  case applied =>
    rw [applyFrame_evict t different, PerStation.entry_put]
    refine ⟨Entry.evicted_effective, Entry.evicted_stale, ?_, fun k hk hx => ?_⟩
    · rw [PerStation.entry_put_other _ different.symm, PerStation.entry_put]
      rfl
    · rw [PerStation.entry_put_other _ hk, PerStation.entry_put_other _ hx]
  case examined =>
    rw [examineEvicts_entry]
    refine ⟨fun own => if_pos own, fun other active kept => ?_, fun other active differs => ?_, fun other inactive => ?_⟩
    all_goals rw [if_neg other]
    · rw [kept, evictAfter_kept lease active]
    · exact evictAfter_of_ne lease active differs
    · exact evictAfter_inactive lease _ inactive

end Sys2Proof.Machine

/-! # The views of the table and of the retired list, and the expiries that queue EVICTs -/

namespace Sys2Proof.Machine

/-! ### Views laid out field by field (R122, R168, R183) -/

/-- Of items of one length laid out in a row, the bytes of one item. -/
theorem slice_flatMap {α β : Type} {f : α → List β} {n : Nat} (length : ∀ a, (f a).length = n) {items : List α} {i : Nat}
    {a : α} (h : items[i]? = some a) : ((items.flatMap f).drop (n * i)).take n = f a := by
  induction items generalizing i with
  | nil => cases h
  | cons b items ih =>
    cases i with
    | zero =>
      obtain rfl := Option.some.inj h
      rw [Nat.mul_zero, List.drop_zero, List.flatMap_cons]
      exact List.take_left' (length b)
    | succ i =>
      rw [List.flatMap_cons, Nat.mul_succ, Nat.add_comm, ← List.drop_drop, List.drop_left' (length b)]
      exact ih h

theorem length_flatMap_of_length {α β : Type} {f : α → List β} {n : Nat} (length : ∀ a, (f a).length = n)
    (items : List α) : (items.flatMap f).length = n * items.length := by
  simp [List.length_flatMap, length, Nat.mul_comm]

theorem bitsByte_flags (a b c : Bool) : bitsByte [a, b, c] =
    (if a then 1#8 else 0#8) ||| (if b then 2#8 else 0#8) ||| (if c then 4#8 else 0#8) := by
  revert a b c
  decide

/-- A nonce as the two bytes of a view, most significant first. -/
theorem bytes16_nonce (n : Nonce) : bytes16 n.toNat = [n.extractLsb' 8 8, n.extractLsb' 0 8] := by
  have high : BitVec.ofNat 8 (n.toNat / 256) = n.extractLsb' 8 8 := by
    rw [BitVec.extractLsb', Nat.shiftRight_eq_div_pow]
  have low : BitVec.ofNat 8 n.toNat = n.extractLsb' 0 8 := by rw [BitVec.extractLsb', Nat.shiftRight_zero]
  rw [bytes16, high, low]

/-- The 8 bytes of an entry, each by the field it carries. -/
theorem Entry.bytes_eq (e : Entry) : e.bytes = [
    (if e.known then 1#8 else 0#8) ||| (if e.waiting = none then 0#8 else 2#8) ||| (if e.nonce = none then 0#8 else 4#8),
    BitVec.ofNat 8 e.held,
    (match e.waiting with | none => 0#8 | some w => BitVec.ofNat 8 w.requested),
    (match e.waiting with | none => 0#8 | some w => BitVec.ofNat 8 w.level),
    BitVec.ofNat 8 e.generation.toNat,
    (match e.nonce with | none => 0#8 | some n => n.extractLsb' 8 8),
    (match e.nonce with | none => 0#8 | some n => n.extractLsb' 0 8),
    BitVec.ofNat 8 (min 255 e.age)] := by
  have nonce : bytes16 ((e.nonce.map BitVec.toNat).getD 0) =
      [(match e.nonce with | none => 0#8 | some n => n.extractLsb' 8 8),
        (match e.nonce with | none => 0#8 | some n => n.extractLsb' 0 8)] := by
    cases e.nonce with
    | none => rfl
    | some n => exact bytes16_nonce n
  rw [Entry.bytes, bitsByte_flags, nonce]
  unfold Entry.requested Entry.level
  cases e.waiting <;> cases e.nonce <;> rfl

theorem Entry.bytes_length (e : Entry) : e.bytes.length = 8 := rfl

theorem RetiredEntry.bytes_eq (e : RetiredEntry) :
    e.bytes = [BitVec.ofNat 8 (e.block / 256), BitVec.ofNat 8 e.block, e.cause.code] := rfl

theorem RetiredEntry.bytes_length (e : RetiredEntry) : e.bytes.length = 3 := rfl

theorem stationIds_getElem? (k : StationId) : stationIds[k.toNat]? = some k := by
  simp [stationIds, k.isLt]

/-- The fields of the budget view ahead of its entries. -/
theorem State.budgetView_head (s : State) : s.budgetView.take 6 =
    [BitVec.ofNat 8 s.ctl.id.toNat, s.ctl.station.code, BitVec.ofNat 8 s.ctl.budget,
      BitVec.ofNat 8 (tableTotal s.ctl.table / 256), BitVec.ofNat 8 (tableTotal s.ctl.table),
      optByte 0xFF#8 ((precedentWaiter s.ctl.table).map BitVec.toNat)] := rfl

theorem State.budgetView_entries (s : State) :
    s.budgetView.drop 6 = stationIds.flatMap fun k => (s.ctl.table.entry k).bytes := rfl

/-- The fields of the retired view ahead of its entries. -/
theorem Bank.retiredView_head (bk : Bank) : bk.retiredView.take 9 =
    [bk.mapState.code, mapBlockCode bk.mapBlock, BitVec.ofNat 8 bk.nextMapPage,
      bk.mapSeq.extractLsb' 24 8, bk.mapSeq.extractLsb' 16 8, bk.mapSeq.extractLsb' 8 8, bk.mapSeq.extractLsb' 0 8,
      BitVec.ofNat 8 bk.mapFailureRun, BitVec.ofNat 8 bk.retired.length] := rfl

theorem Bank.retiredView_entries (bk : Bank) : bk.retiredView.drop 9 = bk.retired.flatMap RetiredEntry.bytes := rfl

section Views

variable {s : State}

theorem exec_readBudgetTable (ready : s.ready = true) :
    exec (.readBudgetTable []) s = .next (s.answerData s.budgetView) := by
  show execReadBudgetTable [] s = _
  rw [execReadBudgetTable, State.transaction_ready ready, if_neg (not_not.2 rfl)]

theorem exec_readRetired (ready : s.ready = true) {bank : Byte} {b : BankId} (hb : bankOf bank = some b) :
    exec (.readRetired [bank]) s = .next (s.answerData (s.bank b).retiredView) := by
  show execReadRetired [bank] s = _
  rw [execReadRetired, State.transaction_ready ready]
  simp only [oneByte, hb]

theorem exec_readRetired_badAddress (ready : s.ready = true) {bank : Byte} (hb : bankOf bank = none) :
    exec (.readRetired [bank]) s = .next (s.answer .badAddress) := by
  show execReadRetired [bank] s = _
  rw [execReadRetired, State.transaction_ready ready]
  simp only [oneByte, hb]

theorem bankOf_eq_none {bank : Byte} (h : 1 < bank.toNat) : bankOf bank = none := by
  have zero : bank ≠ 0#8 := by rintro rfl; contradiction
  have one : bank ≠ 1#8 := by rintro rfl; contradiction
  rw [bankOf, if_neg zero, if_neg one]

end Views

/-- Settles O17: the fields ahead of the entries by their codes, and each entry as its slice of the view. -/
theorem readViewsChangeNothing : Obligations.ReadViewsChangeNothing := by
  intro s bank ready
  refine ⟨exec_readBudgetTable ready, ?length, ?head, fun k => ?entry,
    fun beyond => exec_readRetired_badAddress ready (bankOf_eq_none beyond), fun b hb =>
      ⟨exec_readRetired ready hb, ?retiredHead, fun i e he => ?retired, ?retiredLength⟩⟩
  case length =>
    have entries := length_flatMap_of_length (fun k => (s.ctl.table.entry k).bytes_length) stationIds
    rw [← List.take_append_drop 6 s.budgetView, List.length_append, State.budgetView_entries, entries]
    rfl
  case head =>
    rw [State.budgetView_head]
    refine congrArg₂ (fun rest x => BitVec.ofNat 8 s.ctl.id.toNat :: x :: rest) ?_ ?_
    · unfold Controller.budget
      cases s.ctl.settings <;> cases precedentWaiter s.ctl.table <;> rfl
    · cases s.ctl.station <;> rfl
  case entry =>
    refine Eq.trans ?_ (s.ctl.table.entry k).bytes_eq
    rw [← List.drop_drop, State.budgetView_entries]
    exact slice_flatMap (fun k => (s.ctl.table.entry k).bytes_length) (stationIds_getElem? k)
  case retiredHead =>
    rw [Bank.retiredView_head]
    cases (s.bank b).mapState <;> rcases (s.bank b).mapBlock with - | - | - <;> rfl
  case retired =>
    rw [← List.drop_drop, Bank.retiredView_entries, slice_flatMap RetiredEntry.bytes_length he, RetiredEntry.bytes_eq]
    cases e.cause <;> rfl
  case retiredLength =>
    rw [← List.take_append_drop 9 (s.bank b).retiredView, List.length_append, Bank.retiredView_entries,
      length_flatMap_of_length RetiredEntry.bytes_length]
    rfl

/-! ### The expiries of the last-heard age and of the learning window (R117, R148) -/

/-- With none pending, an EVICT is queued where it is due. -/
theorem evictAfter_none (lease : Nat) (e : Entry) : evictAfter lease e none =
    if lease < e.age ∧ e.active = true then some e.generation else none := by
  simp [evictAfter, evictDue]

theorem Controller.leaseTicks_of_settings {c : Controller} {g : Settings} (h : c.settings = some g) :
    c.leaseTicks = 10 * g.lease := by
  simp only [Controller.leaseTicks, h]
  exact Nat.mul_comm _ _

section Examined

variable {c : Controller}

theorem Controller.tendEvicts_of_ne (other : c.station ≠ .inService) : c.tendEvicts = c := if_neg other

theorem Controller.tendEvicts_evict (hs : c.station = .inService) (k : StationId) :
    c.tendEvicts.transmit.evict.entry k = if k = c.id then none
      else evictAfter c.leaseTicks (c.table.entry k) (c.transmit.evict.entry k) := by
  rw [tendEvicts, if_pos hs]
  exact examineEvicts_entry _ _ _ _ k

/-- An EVICT is all that examining them adds or removes. -/
theorem Controller.tendEvicts_eq (c : Controller) : c.tendEvicts =
    { c with transmit := { c.transmit with evict := c.tendEvicts.transmit.evict } } := by
  unfold tendEvicts
  split <;> rfl

variable {k : StationId}

theorem Controller.ageOut_entry (c : Controller) (k : StationId) :
    (c.ageOut k).table.entry k = (c.table.entry k).silent c.leaseTicks := by
  rw [ageOut, tendEvicts_table, PerStation.entry_put]

theorem Controller.ageOut_entry_other (c : Controller) {j : StationId} (h : j ≠ k) :
    (c.ageOut k).table.entry j = c.table.entry j := by
  rw [ageOut, tendEvicts_table, PerStation.entry_put_other _ h]

theorem Controller.ageOut_transmit (k : StationId) (other : c.station ≠ .inService) : (c.ageOut k).transmit = c.transmit := by
  rw [ageOut, tendEvicts_of_ne (by exact other)]

/-- A silent holder or waiter has an EVICT pending at its generation (R117). -/
theorem Controller.ageOut_evict (hs : c.station = .inService) (other : k ≠ c.id) (active : (c.table.entry k).active = true)
    (pending : c.transmit.evict.entry k = none ∨ c.transmit.evict.entry k = some (c.table.entry k).generation) :
    (c.ageOut k).transmit.evict.entry k = some (c.table.entry k).generation := by
  rw [ageOut, tendEvicts_evict (by exact hs), if_neg (by exact other), PerStation.entry_put]
  have active : ((c.table.entry k).silent c.leaseTicks).active = true := active
  have past : c.leaseTicks < ((c.table.entry k).silent c.leaseTicks).age := Nat.le_max_right _ _
  show evictAfter c.leaseTicks _ (c.transmit.evict.entry k) = _
  rcases pending with none | kept
  · rw [none, evictAfter_none]
    exact if_pos ⟨past, active⟩
  · rw [kept]
    exact evictAfter_kept _ active

end Examined

namespace State

variable {s : State}

theorem exec_lastHeardAgeExpiry (s : State) (k : StationId) : exec (.lastHeardAgeExpiry k) s =
    s.happening s.ctl.settings.isSome .timerNotRunning fun s => { s with ctl := s.ctl.ageOut k } := rfl

theorem tendExcess_hello_evict (s : State) : s.tendExcess.ctl.transmit.hello = s.ctl.transmit.hello ∧
    s.tendExcess.ctl.transmit.evict = s.ctl.transmit.evict := by
  unfold tendExcess
  (repeat' split) <;> exact ⟨rfl, rfl⟩

/-- What settling leaves of an IN_SERVICE station's transmit set, and the CLAIM it forms (R90). -/
theorem settle_transmit_inService (hs : s.ctl.station = .inService) :
    s.settle.ctl.transmit.hello = s.ctl.transmit.hello ∧ s.settle.ctl.transmit.evict = s.ctl.transmit.evict ∧
      s.settle.ctl.transmit.claim = s.settle.claimNeeded := by
  have ctl := admitted_ctl (s := s) (by simp [hs])
  have tended : s.settle = s.admitted.tendExcess.tendClaims := by rw [settle_eq, tendTransmit, ctl, hs]
  obtain ⟨hello, evict⟩ := s.admitted.tendExcess_hello_evict
  rw [ctl] at hello evict
  rw [tended, ← hello, ← evict]
  generalize s.admitted.tendExcess = x
  exact ⟨rfl, rfl, rfl⟩

/-- The learning window ends, before the change is settled (R148). -/
def windowEnded (s : State) : State :=
  { s with ctl := { s.ctl with
      station := .inService, window := none, transmit := { s.ctl.transmit with hello := false } }.tendEvicts }

theorem exec_learningWindowEnd (live : s.heldInReset = false) (learning : s.ctl.station = .learning)
    (opened : s.ctl.window ≠ none) : exec .learningWindowEnd s = .next s.windowEnded.settle := by
  have enabled : (decide (s.ctl.station = .learning) && s.ctl.window.isSome) = true := by
    simp [learning, Option.isSome_iff_ne_none, opened]
  show execLearningWindowEnd s = _
  rw [execLearningWindowEnd, enabled, happening_enabled live]
  rfl

theorem exec_learningWindowEnd_refused (h : s.ctl.station ≠ .learning ∨ s.ctl.window = none) :
    exec .learningWindowEnd s = .refused .timerNotRunning := by
  have disabled : (decide (s.ctl.station = .learning) && s.ctl.window.isSome) = false := by
    rcases h with h | h <;> simp [h]
  show execLearningWindowEnd s = _
  exact happening_refused disabled _ _

theorem windowEnded_station (s : State) : s.windowEnded.ctl.station = .inService := Controller.tendEvicts_station _

theorem windowEnded_evict {k : StationId} (unqueued : s.ctl.transmit.evict.entry k = none) :
    s.windowEnded.ctl.transmit.evict.entry k =
      if k ≠ s.ctl.id ∧ s.ctl.leaseTicks < (s.ctl.table.entry k).age ∧ (s.ctl.table.entry k).active = true then
        some (s.ctl.table.entry k).generation else none := by
  rw [windowEnded, Controller.tendEvicts_evict rfl]
  show (if k = s.ctl.id then none else evictAfter s.ctl.leaseTicks (s.ctl.table.entry k) (s.ctl.transmit.evict.entry k)) = _
  rw [unqueued, evictAfter_none]
  by_cases own : k = s.ctl.id <;> simp [own]

end State

/-- Settles O41: an examined EVICT is pending where it is due, and settling leaves those of an IN_SERVICE station. -/
theorem silenceAndTheWindowQueueEvicts : Obligations.SilenceAndTheWindowQueueEvicts := by
  intro s k live
  refine ⟨fun unset => ?unset, fun g set => ?silent, fun learning opened => ?window, State.exec_learningWindowEnd_refused⟩
  case unset =>
    rw [State.exec_lastHeardAgeExpiry, unset]
    exact State.happening_refused rfl _ _
  case silent =>
    have expires : exec (.lastHeardAgeExpiry k) s = .next { s with ctl := s.ctl.ageOut k } := by
      rw [State.exec_lastHeardAgeExpiry, set]
      exact State.happening_enabled live _ _
    refine ⟨_, expires, ?_, fun j other => s.ctl.ageOut_entry_other other, fun other => ?_,
      fun hs other active pending =>
        Controller.ageOut_evict hs other (Entry.active_iff.2 active) pending, rfl, rfl, rfl, rfl, rfl,
      Controller.tendEvicts_station _, rfl, rfl⟩
    · rw [← Controller.leaseTicks_of_settings set]
      exact s.ctl.ageOut_entry k
    · exact Controller.ageOut_transmit k other
  case window =>
    have station := s.windowEnded_station
    obtain ⟨hello, evict, claim⟩ := State.settle_transmit_inService station
    refine ⟨_, State.exec_learningWindowEnd live learning opened, (State.settle_ctl_station _).trans station,
      (State.settle_ctl_window _).trans (Controller.tendEvicts_window _), ?_, State.settle_port _, State.settle_link _,
      (State.settle_ctl_renewal _).trans (Controller.tendEvicts_renewal _), ?_, claim, fun pending => ?_⟩
    · rw [State.settle_ctl_table _ (by simp [station])]
      exact Controller.tendEvicts_table _
    · rw [hello, State.windowEnded, Controller.tendEvicts_eq]
    · rw [evict, State.windowEnded_evict pending]
      exact if_congr (by rw [Entry.active_iff]) rfl rfl

end Sys2Proof.Machine

/-! # A frame of another station, from the idle bus or after a loss

A port that reads an idle bus enters a frame with its start bit as a contender does with its own, and one that lost the arbitration
receives the frame that won (R125, R131 to R136). -/

namespace Sys2Proof.Machine

/-! ### The bits that the receive tests read (R133) -/

/-- A field of the line that ends before the verdict slots. -/
theorem lineField_congr {l m : Line} (same : ∀ k, k ≤ 49 → lineBit l k = lineBit m k) {first width : Nat} (after : 5 ≤ first)
    (within : first + width ≤ 55) : l.extractLsb' first width = m.extractLsb' first width := by
  refine BitVec.eq_of_getLsbD_eq fun i hi => ?_
  have bit (l : Line) : l.getLsbD (first + i) = lineBit l (54 - (first + i)) := by
    rw [lineBit, BitVec.getMsbD_eq_getLsbD, decide_eq_true (by omega), Bool.true_and]
    congr 1
    omega
  rw [BitVec.getLsbD_extractLsb', BitVec.getLsbD_extractLsb', bit, bit, same _ (by omega)]

theorem lineStation_congr {l m : Line} (same : ∀ k, k ≤ 49 → lineBit l k = lineBit m k) : lineStation l = lineStation m :=
  lineField_congr same (by decide) (by decide)

/-- The verdict slots and the end bits are no part of the tests. -/
theorem receiveTests_congr {l m : Line} (same : ∀ k, k ≤ 49 → lineBit l k = lineBit m k) (own : StationId)
    (digest : BitVec 8) (budget : Nat) : receiveTests own digest budget l = receiveTests own digest budget m := by
  have remainder : lineRemainder l = lineRemainder m :=
    congrArg frameCheckBits (List.map_congr_left fun k hk => same (k + 1) (by have := List.mem_range.1 hk; omega))
  have check : lineCheck l = lineCheck m := lineField_congr same (by decide) (by decide)
  have cls : lineCls l = lineCls m := lineField_congr same (by decide) (by decide)
  have kind : lineKind l = lineKind m := lineField_congr same (by decide) (by decide)
  have digests : lineDigest l = lineDigest m := lineField_congr same (by decide) (by decide)
  have payload : linePayload l = linePayload m := lineField_congr same (by decide) (by decide)
  simp only [receiveTests, remainder, check, cls, kind, digests, payload, lineStation_congr same]

/-- A good frame is another station's. -/
theorem lineStation_of_good {own : StationId} {digest : BitVec 8} {budget : Nat} {l : Line} {p : Payload}
    (h : receiveTests own digest budget l = .good p) : lineStation l ≠ own := by
  unfold receiveTests at h
  (repeat' split at h) <;> first | assumption | cases h

/-! ### The part of a station that receives (R131, R132) -/

/-- The first bit of the arbitration that the contender read differently it had left recessive. -/
def Attempt.LostAt (a : Attempt) (l : Line) (k : Nat) : Prop :=
  1 ≤ k ∧ k ≤ 49 ∧ lineBit a.line k = true ∧ lineBit l k = false ∧ ∀ j, 1 ≤ j → j < k → lineBit a.line j = lineBit l j

/-- No attempt of the station is in the frame, or one that has lost its arbitration. -/
def Receives (sending : Option Attempt) (l : Line) : Prop := ∀ a, sending = some a → ∃ k, a.LostAt l k

section Receives

variable {c : Controller} {a : Attempt} {sending : Option Attempt} {l m : Line} {k : Nat}

theorem Attempt.LostAt.congr (h : a.LostAt l k) (same : ∀ k, k ≤ 49 → lineBit m k = lineBit l k) : a.LostAt m k := by
  obtain ⟨h1, h49, drove, read, before⟩ := h
  exact ⟨h1, h49, drove, (same k h49).trans read, fun j hj hk => (before j hj hk).trans (same j (by omega)).symm⟩

theorem Attempt.LostAt.firstDifference (h : a.LostAt l k) : firstDifference a.line l = some k := by
  obtain ⟨h1, h49, drove, read, before⟩ := h
  exact firstDifference_eq_some h1 h49 (by simp [drove, read]) before

/-- A loss in the class or id field leaves the attempt open (R139). -/
theorem Attempt.LostAt.lostEarly (h : a.LostAt l k) : a.lostEarly l = decide (k ≤ 6) := by
  obtain ⟨-, -, drove, -, -⟩ := id h
  simp [Attempt.lostEarly, h.firstDifference, drove]

theorem receives_none : Receives none l := nofun

theorem Receives.congr (h : Receives sending l) (same : ∀ k, k ≤ 49 → lineBit m k = lineBit l k) : Receives sending m :=
  fun a ha => (h a ha).imp fun _ lost => lost.congr same

theorem Receives.part (h : Receives sending l) :
    c.part sending l = .received (receiveTests c.id c.digest c.budget l) := by
  cases sending with
  | none => rfl
  | some a =>
    obtain ⟨k, lost⟩ := h a rfl
    obtain ⟨-, -, drove, -, -⟩ := id lost
    simp [Controller.part, lost.firstDifference, drove]

end Receives

namespace State

variable {s u x y : State} {line l : Line} {p : Payload}

/-! ### The start bit of a frame (R125) -/

/-- The port is about to read a frame's start bit, whatever its counts. -/
def Begins (s u : State) : Prop :=
  ∃ r d k, u = { s with port := { s.port with
    framing := .inFrame [], recessiveCount := r, dominantCount := d, stuck := k } }

/-- Recessive bits of an idle bus are counted. -/
theorem readBits_recessive (n : Nat) (live : s.heldInReset = false) (on : s.ctl.station.onBus = true)
    (out : s.port.framing = .outOfFrame) (silent : s.port.sending = none) : ∃ r d k,
    min idleBits (s.port.recessiveCount + n) ≤ r ∧ s.readBits (List.replicate n true) =
      { s with port := { s.port with recessiveCount := r, dominantCount := d, stuck := k } } := by
  induction n generalizing s with
  | zero => exact ⟨s.port.recessiveCount, s.port.dominantCount, s.port.stuck, Nat.min_le_right _ _, rfl⟩
  | succ n ih =>
    have bit : s.readBit true = { s with port := s.port.outBit true } := by
      rw [readBit_free live on out, freeBit]
      simp [Port.freeBit, silent]
    obtain ⟨r, d, k, counted, read⟩ := ih (s := { s with port := s.port.outBit true }) live on
      ((Port.outBit_framing s.port true).trans out) ((Port.outBit_sending s.port true).trans silent)
    refine ⟨r, d, k, ?_, ?_⟩
    · have next : (s.port.outBit true).recessiveCount = min clearBits (s.port.recessiveCount + 1) := rfl
      simp only [next, idleBits, clearBits] at counted ⊢
      omega
    · rw [List.replicate_succ, readBits_cons, bit, read]
      rfl

/-- A dominant bit of an idle bus is a frame's start bit. -/
theorem readBit_start (live : s.heldInReset = false) (on : s.ctl.station.onBus = true) (out : s.port.framing = .outOfFrame)
    (silent : s.port.sending = none) (idle : idleBits ≤ s.port.recessiveCount) : s.readBit false =
      ({ s with port := { s.port with framing := .inFrame [], recessiveCount := 0 } } : State).readBit false := by
  have idle : s.port.idle = true := by simp [Port.idle, out, idle]
  rw [readBit_free live on out, readBit_inFrame (by exact live) (by exact on) rfl, freeBit]
  simp [Port.freeBit, idle, silent, frameBit, readLevel, slotsAfter, checkEnd, frameBits, Port.countDominant]

theorem exec_frameEnd_eq (n : Nat) (bits : List Bool) (s : State) :
    exec (.frameEnd n bits) s = .next ((s.readBits (List.replicate n true)).readBits bits) := rfl

/-- A frame from the idle bus is read as one from its start bit on. -/
theorem exec_frameEnd_idle {n : Nat} (live : s.heldInReset = false) (on : s.ctl.station.onBus = true)
    (start : lineBit line 0 = false) (out : s.port.framing = .outOfFrame) (silent : s.port.sending = none)
    (idle : 6 ≤ s.port.recessiveCount + n) :
    ∃ u, s.Begins u ∧ exec (.frameEnd n (lineBits line)) s = exec (.frameEnd 0 (lineBits line)) u := by
  obtain ⟨r, d, k, counted, read⟩ := readBits_recessive n live on out silent
  have begun : idleBits ≤ r := (Nat.le_min.2 ⟨le_rfl, idle⟩).trans counted
  have starts := readBit_start (s := { s with port := { s.port with recessiveCount := r, dominantCount := d, stuck := k } })
    live on out silent begun
  obtain ⟨rest, split⟩ : ∃ rest, lineBits line = false :: rest :=
    ⟨(List.range' 1 54).map (lineBit line), by rw [← start]; rfl⟩
  refine ⟨_, ⟨0, d, k, rfl⟩, ?_⟩
  rw [exec_frameEnd_eq, exec_frameEnd_eq, read, split, readBits_cons, starts, List.replicate_zero, readBits_nil,
    readBits_cons]

/-- What a station finds out up to the verdict slots does not rest on the counts. -/
theorem Begins.atEnd (h : s.Begins u) (ends : u.AtEnd line y) : s.AtEnd line y := by
  obtain ⟨r, d, k, rfl⟩ := h
  exact ⟨ends.ctl, ends.link, ends.sending, ends.rejectionRun, ends.rejectRun, ends.judgement, ends.droveReject,
    ends.droveObjection⟩

theorem Begins.hears (h : s.Begins u) (line : Line) : u.hears line = s.hears line := by
  obtain ⟨r, d, k, rfl⟩ := h
  rfl

/-- A frame that is received, from the idle bus or by a contender, ends with the line as the station reads it. -/
theorem exec_frameEnd_received {n : Nat} (live : s.heldInReset = false) (on : s.ctl.station.onBus = true)
    (start : lineBit line 0 = false)
    (h : (s.port.framing = .outOfFrame ∧ s.port.sending = none ∧ 6 ≤ s.port.recessiveCount + n) ∨
      (s.port.framing = .inFrame [] ∧ n = 0)) :
    ∃ y, s.AtEnd line y ∧ exec (.frameEnd n (lineBits line)) s = .next (y.endFrame (s.hears line)) := by
  rcases h with ⟨out, silent, idle⟩ | ⟨framing, rfl⟩
  · obtain ⟨u, begins, same⟩ := exec_frameEnd_idle live on start out silent idle
    have framing : u.port.framing = .inFrame [] ∧ u.heldInReset = false ∧ u.ctl.station.onBus = true := by
      obtain ⟨r, d, k, rfl⟩ := begins
      exact ⟨rfl, live, on⟩
    obtain ⟨y, read, run⟩ := exec_frameEnd_heard framing.2.1 framing.2.2 framing.1 start
    exact ⟨y, begins.atEnd read.atEnd, by rw [same, run, begins.hears]⟩
  · obtain ⟨y, read, run⟩ := exec_frameEnd_heard live on framing start
    exact ⟨y, read.atEnd, run⟩

/-! ### A good frame, at the end of its check field (R115, R133 to R135) -/

section Good

variable (receives : Receives s.port.sending line)
  (good : receiveTests s.ctl.id s.ctl.digest s.ctl.budget line = .good p)

include receives good

theorem part_good_of_congr (same : ∀ k, k ≤ 49 → lineBit l k = lineBit line k) :
    s.ctl.part s.port.sending l = .received (.good p) := by
  rw [(receives.congr same).part, receiveTests_congr same, good]

theorem checkRead_good : s.checkRead (lineUpTo line 50) = { s.port with
    judgement := if s.ctl.station = .inService then s.ctl.judges (some (lineStation line, p)) else none
    droveReject := false
    droveObjection := false } := by
  rw [checkRead, part_good_of_congr receives good (lineBit_checkField line), Part.carries,
    lineStation_congr (lineBit_checkField line)]
  rfl

theorem judgement_good {v : Bool} : (s.checkRead (lineUpTo line 50)).judgement = some v ↔
    s.ctl.station = .inService ∧ ∃ (q : BitVec 8) (w : BitVec 4), p = .claim q w ∧
      fits s.ctl.budget s.ctl.table (lineStation line) q.toNat w.toNat = v := by
  rw [checkRead_good receives good, ← judges_eq_some_iff]
  by_cases hs : s.ctl.station = .inService <;> simp [hs]

/-- It objects exactly where it judges the CLAIM not to fit and no station rejects it. -/
theorem willObject_good : s.willObject line = true ↔ s.ctl.station = .inService ∧ ¬ lineRejectDominant line = true ∧
    ∃ (q : BitVec 8) (w : BitVec 4), p = .claim q w ∧
      fits s.ctl.budget s.ctl.table (lineStation line) q.toNat w.toNat = false := by
  have reject : (s.checkRead (lineUpTo line 50)).droveReject = false := by rw [checkRead_good receives good]
  have judged := judgement_good receives good (v := false)
  simp only [willObject, reject, lineRejectDominant, Bool.and_eq_true, decide_eq_true_eq, Bool.not_false, Bool.and_true,
    Bool.not_eq_true', Bool.not_eq_false, judged]
  exact ⟨fun ⟨⟨inService, _, claim⟩, recessive⟩ => ⟨inService, recessive, claim⟩,
    fun ⟨inService, recessive, claim⟩ => ⟨⟨inService, inService, claim⟩, recessive⟩⟩

theorem hears_good : s.hears line = heardLine line false (s.willObject line) := by
  rw [hears, checkRead_good receives good]

theorem lineRejectDominant_hears_good : lineRejectDominant (s.hears line) = lineRejectDominant line := by
  rw [hears_good receives good, lineRejectDominant_heardLine, Bool.or_false]

theorem lineObjectionDominant_hears_good :
    lineObjectionDominant (s.hears line) = (lineObjectionDominant line || s.willObject line) := by
  rw [hears_good receives good, lineObjectionDominant_heardLine]

end Good

end State

/-! ### A good frame applied, or rejected by another station (R104, R136) -/

theorem renewDiffers_iff {t : PerStation Entry} {own sender : StationId} {p : Payload} : renewDiffers t own sender p = true ↔
    sender ≠ own ∧ ∃ h q w, p = .renew h q w ∧ (t.entry sender).known = true ∧ (t.entry sender).held ≠ h.toNat := by
  cases p <;> simp [renewDiffers, and_assoc]

section ApplyFrom

variable {c : Controller} {sender : StationId} (foreign : sender ≠ c.id) (p : Payload) (objected : Bool)

include foreign

/-- Another station's frame changes the table, and the EVICTs that are examined against it. -/
theorem applyFrom_foreign : c.applyFrom sender p objected =
    ({ c with table := applyFrame c.table sender p objected } : Controller).tendEvicts := by
  rw [Controller.applyFrom, if_neg foreign]

theorem applyFrom_foreign_fields : (c.applyFrom sender p objected).table = applyFrame c.table sender p objected ∧
    (c.applyFrom sender p objected).lapsed = c.lapsed ∧ (c.applyFrom sender p objected).renewal = c.renewal ∧
    (c.applyFrom sender p objected).window = c.window ∧ (c.applyFrom sender p objected).id = c.id ∧
    (c.applyFrom sender p objected).diverged = c.diverged := by
  rw [applyFrom_foreign foreign]
  simp

end ApplyFrom

namespace State

variable {s y e : State} {line l : Line} {p : Payload}

/-- A judging station's verdict was the other one, or its copy differs from a RENEW (R109, R116). -/
def copyDiffers (y : State) (sender : StationId) (p : Payload) (objected : Bool) : Bool :=
  y.claimDiffers p objected ||
    ((decide (y.ctl.station = .inService) || decide (y.ctl.station = .leaving)) && renewDiffers y.ctl.table y.ctl.id sender p)

/-- What the end of a good frame leaves, whether or not the station then leaves the bus. -/
structure GoodRead (y : State) (p : Payload) (l : Line) (e : State) : Prop where
  table : e.ctl.table = if lineRejectDominant l then y.ctl.table
    else applyFrame y.ctl.table (lineStation l) p (lineObjectionDominant l)
  id : e.ctl.id = y.ctl.id
  renewal : e.ctl.renewal = y.ctl.renewal
  window : e.ctl.window = y.ctl.window
  diverged : e.ctl.diverged =
    (y.ctl.diverged || (!lineRejectDominant l && y.copyDiffers (lineStation l) p (lineObjectionDominant l)))
  link : e.link = if !lineRejectDominant l && y.copyDiffers (lineStation l) p (lineObjectionDominant l) then
    { y.link with divergedNews := y.link.divergedNews || !y.ctl.diverged } else y.link
  droveReject : e.port.droveReject = y.port.droveReject
  droveObjection : e.port.droveObjection = y.port.droveObjection
  rejectRun : e.port.rejectRun = if lineBroken l then y.port.rejectRun else 0
  rejectionRun : e.port.rejectionRun = y.port.rejectionRun
  framing : e.port.framing = .outOfFrame
  recessiveCount : e.port.recessiveCount = lineClosingRecessive l

theorem GoodRead.enterConfigured (h : y.GoodRead p l e) : y.GoodRead p l e.enterConfigured :=
  ⟨h.table, h.id, h.renewal, h.window, h.diverged, h.link, h.droveReject, h.droveObjection, h.rejectRun, h.rejectionRun,
    rfl, h.recessiveCount⟩

theorem GoodRead.settle (h : y.GoodRead p l e) (other : e.ctl.station ≠ .solo) : y.GoodRead p l e.settle where
  table := (settle_ctl_table e other).trans h.table
  id := (settle_ctl_id e).trans h.id
  renewal := (settle_ctl_renewal e).trans h.renewal
  window := (settle_ctl_window e).trans h.window
  diverged := (settle_ctl_diverged e).trans h.diverged
  link := (settle_link e).trans h.link
  droveReject := by rw [settle_port, h.droveReject]
  droveObjection := by rw [settle_port, h.droveObjection]
  rejectRun := by rw [settle_port, h.rejectRun]
  rejectionRun := by rw [settle_port, h.rejectionRun]
  framing := by rw [settle_port, h.framing]
  recessiveCount := by rw [settle_port, h.recessiveCount]

theorem GoodRead.own (h : y.GoodRead p l e) : e.ctl.own = (if lineRejectDominant l then y.ctl.table
    else applyFrame y.ctl.table (lineStation l) p (lineObjectionDominant l)).entry y.ctl.id := by
  rw [Controller.own, h.table, h.id]

section GoodFrame

variable (part : y.ctl.part y.port.sending l = .received (.good p))

include part

theorem verdict_good : y.verdict l = ⟨.received (.good p), lineRejectDominant l, lineObjectionDominant l,
    if lineRejectDominant l then none else some (lineStation l, p)⟩ := by
  simp [verdict, part, Part.carries]

/-- The reject run is cleared by a good frame that is not broken, rejected or not (R140). -/
theorem frameRead_good_port : (y.frameRead l).port =
    { y.port.frameOver l with rejectRun := if lineBroken l then y.port.rejectRun else 0 } := by
  have port : (y.applyVerdict (y.verdict l)).port = y.port := y.applyVerdict_port _
  unfold frameRead
  dsimp only
  rw [port, verdict_good part]
  cases lineBroken l <;> rfl

/-- A frame that another station rejects leaves the controller as it is. -/
theorem applyVerdict_rejected (rejected : lineRejectDominant l = true) : y.applyVerdict (y.verdict l) = y := by
  rw [verdict_good part, applyVerdict, if_pos rejected]

variable (foreign : lineStation l ≠ y.ctl.id)

include foreign

theorem applyVerdict_good (unrejected : lineRejectDominant l = false) : y.applyVerdict (y.verdict l) = { y with
    ctl := { y.ctl.applyFrom (lineStation l) p (lineObjectionDominant l) with
      diverged := y.ctl.diverged || y.copyDiffers (lineStation l) p (lineObjectionDominant l) }
    link := if y.copyDiffers (lineStation l) p (lineObjectionDominant l) then
      { y.link with divergedNews := y.link.divergedNews || !y.ctl.diverged } else y.link } := by
  obtain ⟨-, -, -, -, -, diverged⟩ := applyFrom_foreign_fields foreign p (lineObjectionDominant l)
  have disagrees : y.disagrees (y.verdict l) = y.copyDiffers (lineStation l) p (lineObjectionDominant l) := by
    simp [verdict_good part, unrejected, disagrees, copyDiffers, claimDiffers]
  rw [verdict_good part, unrejected] at disagrees ⊢
  simp only [Bool.false_eq_true, if_false] at disagrees ⊢
  unfold applyVerdict
  dsimp only
  rw [disagrees]
  cases y.copyDiffers (lineStation l) p (lineObjectionDominant l) with
  | false => rw [Bool.or_false, ← diverged]; rfl
  | true => rw [Bool.or_true, ← diverged]; rfl

theorem applyVerdict_good_fields : (y.applyVerdict (y.verdict l)).ctl.table = (if lineRejectDominant l then y.ctl.table
      else applyFrame y.ctl.table (lineStation l) p (lineObjectionDominant l)) ∧
    (y.applyVerdict (y.verdict l)).ctl.id = y.ctl.id ∧ (y.applyVerdict (y.verdict l)).ctl.lapsed = y.ctl.lapsed ∧
    (y.applyVerdict (y.verdict l)).ctl.renewal = y.ctl.renewal ∧
    (y.applyVerdict (y.verdict l)).ctl.window = y.ctl.window ∧
    (y.applyVerdict (y.verdict l)).ctl.diverged =
      (y.ctl.diverged || (!lineRejectDominant l && y.copyDiffers (lineStation l) p (lineObjectionDominant l))) ∧
    (y.applyVerdict (y.verdict l)).link =
      (if !lineRejectDominant l && y.copyDiffers (lineStation l) p (lineObjectionDominant l) then
        { y.link with divergedNews := y.link.divergedNews || !y.ctl.diverged } else y.link) := by
  cases rejected : lineRejectDominant l with
  | true =>
    rw [applyVerdict_rejected part rejected]
    simp
  | false =>
    obtain ⟨table, lapsed, renewal, window, id, -⟩ := applyFrom_foreign_fields foreign p (lineObjectionDominant l)
    rw [applyVerdict_good part foreign rejected]
    exact ⟨table, id, lapsed, renewal, window, rfl, rfl⟩

theorem frameRead_good : y.GoodRead p l (y.frameRead l) := by
  obtain ⟨table, id, -, renewal, window, diverged, link⟩ := applyVerdict_good_fields part foreign
  have port := frameRead_good_port part
  exact {
    table, id, renewal, window, diverged, link
    droveReject := by rw [port]; rfl
    droveObjection := by rw [port]; rfl
    rejectRun := by rw [port]
    rejectionRun := by rw [port]; rfl
    framing := by rw [port]; rfl
    recessiveCount := by rw [port]; rfl }

omit foreign in
/-- A LEAVING station that holds and waits for nothing once the frame has been applied leaves the bus; any other stays (R136,
R154). -/
theorem frameEnded_good (few : y.port.rejectionRun < rejectionRunLimit) : y.frameEnded l =
    if y.ctl.station = .leaving ∧ lineRejectDominant l = false ∧ (y.frameRead l).ctl.own.active = false then
      (y.frameRead l).enterConfigured else y.frameRead l := by
  have fault : (if lineBroken l then none else (y.frameRead l).port.faultAfter (y.verdict l).part) = none := by
    rw [frameRead_good_port part, verdict_good part]
    cases lineBroken l with
    | true => rfl
    | false =>
      have few : ¬ rejectionRunLimit ≤ y.port.rejectionRun := Nat.not_le_of_lt few
      simp only [Bool.false_eq_true, if_false, Port.faultAfter, Port.frameOver]
      rw [if_neg few, if_neg (by decide)]
  have station : (y.frameRead l).ctl.station = y.ctl.station := y.applyVerdict_station _
  unfold frameEnded leaveBus
  rw [fault, station, verdict_good part]
  cases lineRejectDominant l <;> simp

variable (few : y.port.rejectionRun < rejectionRunLimit) (on : y.ctl.station.onBus = true)

include few on

theorem endFrame_good : y.GoodRead p l (y.endFrame l) := by
  have read := frameRead_good part foreign
  have other := frameEnded_station_ne_solo on l
  rw [endFrame_eq]
  rw [frameEnded_good part few] at other ⊢
  split at other
  · rename_i gone
    rw [if_pos gone]
    exact read.enterConfigured.settle other
  · rename_i stays
    rw [if_neg stays]
    exact read.settle other

/-- The end of the frame takes the station off the bus, or leaves it and an attempt that was lost early. -/
theorem endFrame_good_cases :
    ((y.ctl.station = .leaving ∧ lineRejectDominant l = false ∧ (y.endFrame l).ctl.own.active = false) ∧
      (y.endFrame l).ctl.station = .configured ∧ (y.endFrame l).port.sending = none) ∨
    (¬ (y.ctl.station = .leaving ∧ lineRejectDominant l = false ∧ (y.endFrame l).ctl.own.active = false) ∧
      (y.endFrame l).ctl.station = y.ctl.station ∧ (y.endFrame l).ctl.lapsed = y.ctl.lapsed ∧
      (y.endFrame l).port.sending = y.port.sending.filter fun a => a.lostEarly l) := by
  have own : (y.endFrame l).ctl.own = (y.frameRead l).ctl.own :=
    (endFrame_good part foreign few on).own.trans (frameRead_good part foreign).own.symm
  obtain ⟨-, -, lapsed, -⟩ := applyVerdict_good_fields part foreign
  rw [own]
  by_cases gone : y.ctl.station = .leaving ∧ lineRejectDominant l = false ∧ (y.frameRead l).ctl.own.active = false
  · refine .inl ⟨gone, ?_⟩
    rw [endFrame_eq, frameEnded_good part few, if_pos gone]
    exact ⟨settle_ctl_station _, by rw [settle_port]; rfl⟩
  · refine .inr ⟨gone, ?_⟩
    rw [endFrame_eq, frameEnded_good part few, if_neg gone]
    exact ⟨(settle_ctl_station _).trans (y.applyVerdict_station _), (settle_ctl_lapsed _).trans lapsed,
      by rw [settle_port, frameRead_good_port part]; rfl⟩

end GoodFrame

/-- The copy disagrees with a frame that no station rejects: the CLAIM fits it and another station objects, or a RENEW states another
held value of a known station (R109, R116). -/
def Diverges (s : State) (line : Line) (p : Payload) : Prop :=
  ¬ lineRejectDominant line = true ∧
    ((s.ctl.station = .inService ∧ lineObjectionDominant line = true ∧ ∃ (q : BitVec 8) (w : BitVec 4),
      p = .claim q w ∧ fits s.ctl.budget s.ctl.table (lineStation line) q.toNat w.toNat = true) ∨
    ((s.ctl.station = .inService ∨ s.ctl.station = .leaving) ∧ ∃ h q w, p = .renew h q w ∧
      (s.ctl.table.entry (lineStation line)).known = true ∧ (s.ctl.table.entry (lineStation line)).held ≠ h.toNat))

section Diverges

variable (h : s.AtEnd line y) (receives : Receives s.port.sending line)
  (good : receiveTests s.ctl.id s.ctl.digest s.ctl.budget line = .good p)

include h receives good

/-- The station's own verdict on a CLAIM that no station rejects is the other one where the CLAIM fits and another station
objects (R116). -/
theorem AtEnd.claimDiffers_good (unrejected : lineRejectDominant line = false) :
    y.claimDiffers p (lineObjectionDominant (s.hears line)) = true ↔
      s.ctl.station = .inService ∧ lineObjectionDominant line = true ∧ ∃ (q : BitVec 8) (w : BitVec 4),
        p = .claim q w ∧ fits s.ctl.budget s.ctl.table (lineStation line) q.toNat w.toNat = true := by
  have objects := willObject_good receives good
  rw [claimDiffers, h.judgement, Bool.and_eq_true, decide_eq_true_eq, decide_eq_true_eq, judgement_good receives good,
    lineObjectionDominant_hears_good receives good]
  constructor
  · rintro ⟨-, hs, q, w, rfl, fit⟩
    cases fits' : fits s.ctl.budget s.ctl.table (lineStation line) q.toNat w.toNat with
    | false =>
      have drove := objects.2 ⟨hs, by simp [unrejected], q, w, rfl, fits'⟩
      simp [fits', drove] at fit
    | true =>
      have leaves : s.willObject line = false := Bool.eq_false_iff.2 fun drove => by
        obtain ⟨-, -, q', w', same, unfit⟩ := objects.1 drove
        obtain ⟨rfl, rfl⟩ := Payload.claim.inj same
        simp [fits'] at unfit
      exact ⟨hs, by simpa [fits', leaves] using fit.symm, q, w, rfl, fits'⟩
  · rintro ⟨hs, objected, q, w, rfl, fit⟩
    exact ⟨rfl, hs, q, w, rfl, by rw [fit, objected, Bool.true_or]⟩

theorem AtEnd.diverges_iff : (!lineRejectDominant line &&
    y.copyDiffers (lineStation line) p (lineObjectionDominant (s.hears line))) = true ↔ s.Diverges line p := by
  unfold Diverges
  have foreign := lineStation_of_good good
  cases rejected : lineRejectDominant line with
  | true => simp
  | false =>
    rw [copyDiffers, Bool.not_false, Bool.true_and, Bool.or_eq_true, h.claimDiffers_good receives good rejected, h.ctl,
      Bool.and_eq_true, Bool.or_eq_true, decide_eq_true_eq, decide_eq_true_eq, renewDiffers_iff]
    simp only [foreign, ne_eq, not_false_eq_true, true_and, Bool.false_eq_true]

end Diverges

/-! ### The verdict slots and the last bit, bit by bit (R123, R134, R135) -/

section Slots

variable {heard : List Bool} {bit : Bool}

theorem exec_frameEnd_bit (live : s.heldInReset = false) (on : s.ctl.station.onBus = true)
    (framing : s.port.framing = .inFrame heard) : exec (.frameEnd 0 [bit]) s = .next (s.frameBit heard bit) := by
  rw [exec_frameEnd_eq, List.replicate_zero, readBits_nil, readBits_cons, readBits_nil, readBit_inFrame live on framing]

theorem drives_rejectSlot (framing : s.port.framing = .inFrame heard) (h : heard.length = 50) :
    s.drives = !s.port.droveReject := by
  simp [drives, framing, h, checkEnd]

theorem drives_objectionSlot (framing : s.port.framing = .inFrame heard) (h : heard.length = 51) :
    s.drives = !s.objects heard := by
  simp [drives, framing, h, checkEnd]

theorem drives_closing (framing : s.port.framing = .inFrame heard) (h : 52 ≤ heard.length) : s.drives = true := by
  have before : ¬ heard.length < checkEnd := by unfold checkEnd; omega
  have reject : heard.length ≠ checkEnd := by unfold checkEnd; omega
  have objection : heard.length ≠ checkEnd + 1 := by unfold checkEnd; omega
  simp only [drives, framing, if_neg before, if_neg reject, if_neg objection]

theorem objects_iff : s.objects heard = true ↔
    heard[50]? = some true ∧ s.port.judgement = some false ∧ s.ctl.station = .inService := by
  have recessive : heard.getD checkEnd false = true ↔ heard[50]? = some true := by
    rw [List.getD_eq_getElem?_getD, checkEnd]
    cases heard[50]? <;> simp
  simp only [objects, Bool.and_eq_true, decide_eq_true_eq, recessive, and_assoc]

/-- The reject slot reads what the station drives there, and fixes nothing. -/
theorem frameBit_rejectSlot (framing : s.port.framing = .inFrame heard) (h : heard.length = 50) :
    ∃ d k, s.frameBit heard bit = { s with port := { s.port with
      framing := .inFrame (heard ++ [bit && s.drives]), dominantCount := d, stuck := k } } := by
  have level : s.readLevel heard bit = (bit && s.drives) := by
    rw [drives_rejectSlot framing h]
    simp [readLevel, h, checkEnd]
  obtain ⟨d, k, counted⟩ := countDominant_eq s.port (bit && s.drives)
  refine ⟨d, k, ?_⟩
  simp [frameBit, level, slotsAfter, h, checkEnd, frameBits, counted]

/-- With the objection slot the station fixes whether it has driven it. -/
theorem frameBit_objectionSlot (framing : s.port.framing = .inFrame heard) (h : heard.length = 51) :
    ∃ d k, s.frameBit heard bit = { s with port := { s.port with
      framing := .inFrame (heard ++ [bit && s.drives]), droveObjection := !s.drives
      dominantCount := d, stuck := k } } := by
  have drives := drives_objectionSlot framing h
  have level : s.readLevel heard bit = (bit && s.drives) := by
    rw [drives]
    simp [readLevel, h, checkEnd]
  have objects : s.objects (heard ++ [bit && s.drives]) = !s.drives := by
    rw [drives, Bool.not_not]
    simp [State.objects, h, checkEnd]
  obtain ⟨d, k, counted⟩ := countDominant_eq { s.port with droveObjection := !s.drives } (bit && s.drives)
  refine ⟨d, k, ?_⟩
  simp [frameBit, level, slotsAfter, objects, h, checkEnd, frameBits, counted]

/-- With the last bit the frame ends. -/
theorem frameBit_last (h : heard.length = 54) : s.frameBit heard bit =
    ({ s with port := s.port.countDominant bit } : State).endFrame (lineOfBits (heard ++ [bit])) := by
  have level : s.readLevel heard bit = bit := by simp [readLevel, h, checkEnd]
  simp [frameBit, level, h, frameBits]

end Slots

end State

/-! ### What closes a frame (R136) -/

theorem lineClosingRecessive_of_whole {l : Line} (whole : lineBroken l = false) : lineClosingRecessive l = 3 := by
  simp only [lineBroken, Bool.not_eq_false', Bool.and_eq_true] at whole
  obtain ⟨⟨first, second⟩, third⟩ := whole
  simp [lineClosingRecessive, first, second, third]

theorem lineClosingRecessive_of_dominant {l : Line} (dominant : lineBit l 54 = false) : lineClosingRecessive l = 0 := by
  simp [lineClosingRecessive, dominant]

theorem lineClosingRecessive_hears (s : State) (line : Line) :
    lineClosingRecessive (s.hears line) = lineClosingRecessive line := by
  simp only [lineClosingRecessive, State.lineBit_hears_closing s line (n := 52) (by decide) (by decide),
    State.lineBit_hears_closing s line (n := 53) (by decide) (by decide),
    State.lineBit_hears_closing s line (n := 54) (by decide) (by decide)]

namespace State

variable {s t : State} {line : Line} {p : Payload} {n : Nat}

/-- What a good frame leaves of a station that has received it to its end. -/
structure TakesGood (s : State) (line : Line) (p : Payload) (t : State) : Prop where
  table : t.ctl.table = if lineRejectDominant line then s.ctl.table
    else applyFrame s.ctl.table (lineStation line) p (lineObjectionDominant (s.hears line))
  renewal : t.ctl.renewal = s.ctl.renewal
  window : t.ctl.window = s.ctl.window
  diverged : s.Diverges line p → t.ctl.diverged = true ∧
    t.link = { s.link with divergedNews := s.link.divergedNews || !s.ctl.diverged }
  agreed : ¬ s.Diverges line p → t.ctl.diverged = s.ctl.diverged ∧ t.link = s.link
  droveReject : t.port.droveReject = false
  droveObjection : t.port.droveObjection = s.willObject line
  rejectRun : t.port.rejectRun = if lineBroken line then s.port.rejectRun else 0
  rejectionRun : t.port.rejectionRun = s.port.rejectionRun
  framing : t.port.framing = .outOfFrame
  recessiveCount : t.port.recessiveCount = lineClosingRecessive line
  leaves :
    ((s.ctl.station = .leaving ∧ lineRejectDominant line = false ∧ t.ctl.own.active = false) ∧
      t.ctl.station = .configured ∧ t.port.sending = none) ∨
    (¬ (s.ctl.station = .leaving ∧ lineRejectDominant line = false ∧ t.ctl.own.active = false) ∧
      t.ctl.station = s.ctl.station ∧ t.ctl.lapsed = s.ctl.lapsed ∧
      t.port.sending = s.port.sending.filter fun a => a.lostEarly (s.hears line))

/-- A good frame from the idle bus, or one that a contender has lost to, is taken to its end. -/
theorem exec_frameEnd_good (live : s.heldInReset = false) (on : s.ctl.station.onBus = true) (start : lineBit line 0 = false)
    (few : s.port.rejectionRun < 16) (receives : Receives s.port.sending line)
    (good : receiveTests s.ctl.id s.ctl.digest s.ctl.budget line = .good p)
    (enters : (s.port.framing = .outOfFrame ∧ s.port.sending = none ∧ 6 ≤ s.port.recessiveCount + n) ∨
      (s.port.framing = .inFrame [] ∧ n = 0)) :
    ∃ t, exec (.frameEnd n (lineBits line)) s = .next t ∧ s.TakesGood line p t := by
  obtain ⟨y, ends, run⟩ := exec_frameEnd_received live on start enters
  have heard := lineBit_hears s line
  have reject := lineRejectDominant_hears_good receives good
  have diverges := ends.diverges_iff receives good
  have part : y.ctl.part y.port.sending (s.hears line) = .received (.good p) := by
    rw [ends.ctl, ends.sending]
    exact part_good_of_congr receives good heard
  have foreign : lineStation (s.hears line) ≠ y.ctl.id := by
    rw [ends.ctl, lineStation_congr heard]
    exact lineStation_of_good good
  have few : y.port.rejectionRun < rejectionRunLimit := ends.rejectionRun ▸ few
  have on : y.ctl.station.onBus = true := ends.ctl ▸ on
  obtain ⟨table, -, renewal, window, diverged, link, droveReject, droveObjection, rejectRun, rejectionRun, framing,
    recessiveCount⟩ := endFrame_good part foreign few on
  have leaves := endFrame_good_cases part foreign few on
  rw [lineStation_congr heard, reject, ends.ctl] at table
  rw [lineStation_congr heard, reject, ends.ctl] at diverged
  rw [lineStation_congr heard, reject, ends.ctl, ends.link] at link
  rw [reject, ends.ctl, ends.sending] at leaves
  refine ⟨_, run, {
    table, leaves, framing
    renewal := ends.ctl ▸ renewal
    window := ends.ctl ▸ window
    diverged := fun h => ⟨?_, link.trans (if_pos (diverges.2 h))⟩
    agreed := fun h => ⟨?_, link.trans (if_neg (mt diverges.1 h))⟩
    droveReject := ?released
    droveObjection := droveObjection.trans ends.droveObjection
    rejectRun := ?rejectRun
    rejectionRun := rejectionRun.trans ends.rejectionRun
    recessiveCount := recessiveCount.trans (lineClosingRecessive_hears s line) }⟩
  · rw [diverged, diverges.2 h, Bool.or_true]
  · rw [diverged, Bool.eq_false_iff.2 (mt diverges.1 h), Bool.or_false]
  case released => rw [droveReject, ends.droveReject, checkRead_good receives good]
  case rejectRun =>
    rw [rejectRun, ends.rejectRun]
    exact congrArg (if · then s.port.rejectRun else 0) (lineBroken_heardLine line _ _)

namespace TakesGood

variable (h : s.TakesGood line p t)

include h

theorem stays (other : s.ctl.station ≠ .leaving ∨ lineRejectDominant line = true) :
    t.ctl.station = s.ctl.station ∧ t.ctl.lapsed = s.ctl.lapsed := by
  rcases h.leaves with ⟨⟨leaving, unrejected, -⟩, -⟩ | ⟨-, station, lapsed, -⟩
  · exact absurd other (by simp [leaving, unrejected])
  · exact ⟨station, lapsed⟩

/-- LEAVING ends with the frame that leaves the own entry nothing (R154). -/
theorem station_leaving (leaving : s.ctl.station = .leaving) (unrejected : lineRejectDominant line = false) :
    t.ctl.station = if t.ctl.own.active then .leaving else .configured := by
  rcases h.leaves with ⟨⟨-, -, given⟩, station, -⟩ | ⟨holds, station, -⟩
  · rw [station, given]
    rfl
  · cases active : t.ctl.own.active with
    | true => exact station.trans leaving
    | false => exact absurd ⟨leaving, unrejected, active⟩ holds

theorem silent (silent : s.port.sending = none) : t.port.sending = none := by
  rcases h.leaves with ⟨-, -, sending⟩ | ⟨-, -, -, sending⟩
  · exact sending
  · rw [sending, silent]
    rfl

/-- An attempt lost in the class or id field stays open (R139). -/
theorem sending_lost {a : Attempt} {k : Nat} (sends : s.port.sending = some a) (lost : a.LostAt line k)
    (stays : t.ctl.station = s.ctl.station) : t.port.sending = if k ≤ 6 then some a else none := by
  rcases h.leaves with ⟨⟨leaving, -⟩, left, -⟩ | ⟨-, -, -, sending⟩
  · rw [left, leaving] at stays
    cases stays
  · rw [sending, sends, Option.filter_some, (lost.congr (lineBit_hears s line)).lostEarly]
    simp only [decide_eq_true_eq]

end TakesGood

/-- The last bit of a good CLAIM that no station rejects is judged by what the port found at the end of the check field (R116, log
entry 39). -/
theorem exec_frameEnd_lastBit {heard : List Bool} {bit : Bool} {q : BitVec 8} {w : BitVec 4} (live : s.heldInReset = false)
    (on : s.ctl.station.onBus = true) (framing : s.port.framing = .inFrame heard) (h : heard.length = 54)
    (silent : s.port.sending = none) (hl : lineOfBits (heard ++ [bit]) = line)
    (good : receiveTests s.ctl.id s.ctl.digest s.ctl.budget line = .good (.claim q w))
    (unrejected : lineRejectDominant line = false) (few : s.port.rejectionRun < 16) :
    ∃ t, exec (.frameEnd 0 [bit]) s = .next t ∧
      t.ctl.table = applyFrame s.ctl.table (lineStation line) (.claim q w) (lineObjectionDominant line) ∧
      (t.ctl.diverged = true ↔ s.ctl.diverged = true ∨ s.port.judgement = some (lineObjectionDominant line)) := by
  have run := exec_frameEnd_bit (bit := bit) live on framing
  obtain ⟨d, c, counted⟩ := countDominant_eq s.port bit
  rw [frameBit_last h, hl, counted] at run
  have read := endFrame_good (y := { s with port := { s.port with dominantCount := d, stuck := c } }) (l := line)
    (p := .claim q w) (by rw [silent, receives_none.part]; exact congrArg Part.received good) (lineStation_of_good good) few on
  have table := read.table
  have diverged := read.diverged
  rw [unrejected] at table diverged
  refine ⟨_, run, table, ?_⟩
  rw [diverged]
  simp [copyDiffers, claimDiffers, renewDiffers, Payload.kind]

end State

/-- Settles O50: a received frame ends with the line as the station hears it, and the last bits act one by one. -/
theorem goodFrameIsAppliedAndJudged : Obligations.GoodFrameIsAppliedAndJudged := by
  refine ⟨fun s n line p lost live on start few good how => ?frame, fun s heard bit live on framing =>
    ⟨fun h => ⟨State.drives_rejectSlot framing h, ?reject⟩, fun h => ⟨?objects, ?objection⟩, State.drives_closing framing,
      fun h silent p good unrejected few ⟨q, w, claim⟩ => ?last⟩⟩
  case frame =>
    have received : Receives s.port.sending line ∧
        ((s.port.framing = .outOfFrame ∧ s.port.sending = none ∧ 6 ≤ s.port.recessiveCount + n) ∨
          (s.port.framing = .inFrame [] ∧ n = 0)) := by
      rcases lost with - | ⟨a, k⟩
      · obtain ⟨out, silent, idle⟩ := how
        exact ⟨silent ▸ receives_none, .inl ⟨out, silent, idle⟩⟩
      · obtain ⟨inFrame, sends, zero, loss⟩ := how
        refine ⟨fun b hb => ?_, .inr ⟨inFrame, zero⟩⟩
        obtain rfl := Option.some.inj (sends.symm.trans hb)
        exact ⟨k, loss⟩
    obtain ⟨receives, enters⟩ := received
    obtain ⟨t, run, takes⟩ := State.exec_frameEnd_good live on start few receives good enters
    have objects := State.willObject_good receives good
    refine ⟨t, lineObjectionDominant (s.hears line), run, ?_, fun unrejected => takes.table.trans (if_neg unrejected),
      fun rejected => ⟨takes.table.trans (if_pos rejected), takes.stays (.inr rejected)⟩, takes.diverged, takes.agreed, ?_,
      takes.droveReject, takes.rejectRun, takes.rejectionRun, takes.framing,
      fun whole => takes.recessiveCount.trans (lineClosingRecessive_of_whole whole),
      fun dominant => takes.recessiveCount.trans (lineClosingRecessive_of_dominant dominant), fun none => ?silent,
      fun a k loses stays => ?unsettled, takes.renewal, takes.window, fun other => takes.stays (.inl other),
      fun leaving unrejected => takes.station_leaving leaving (Bool.eq_false_iff.2 unrejected)⟩
    · rw [State.lineObjectionDominant_hears_good receives good, Bool.or_eq_true, objects]
    · rw [takes.droveObjection, objects]
    case silent =>
      subst none
      obtain ⟨-, silent, -⟩ := how
      exact takes.silent silent
    case unsettled =>
      subst loses
      obtain ⟨-, sends, -, loss⟩ := how
      exact takes.sending_lost sends loss stays
  case reject =>
    obtain ⟨d, k, read⟩ := State.frameBit_rejectSlot (bit := bit) framing h
    exact ⟨d, k, (State.exec_frameEnd_bit live on framing).trans (congrArg _ read)⟩
  case objects =>
    rw [State.drives_objectionSlot framing h, Bool.not_eq_false', State.objects_iff]
  case objection =>
    obtain ⟨d, k, read⟩ := State.frameBit_objectionSlot (bit := bit) framing h
    exact ⟨d, k, (State.exec_frameEnd_bit live on framing).trans (congrArg _ read)⟩
  case last =>
    subst claim
    exact State.exec_frameEnd_lastBit live on framing h silent rfl good unrejected few

end Sys2Proof.Machine

/-! # A sent frame on the line

A sender's fields are read back as it put them, its check is linear in the bits that it covers, and of two frames that contend the first
bit of class and id at which they differ decides (R127 to R131). -/

namespace Sys2Proof.Machine

/-! ### The fields of a sent frame (R127, R128, R184) -/

/-- A field that begins above the low word of two. -/
theorem extractLsb'_append_add {v w : Nat} (x : BitVec v) (y : BitVec w) (first width : Nat) :
    (x ++ y).extractLsb' (w + first) width = x.extractLsb' first width := by
  rw [BitVec.extractLsb'_append_eq_of_le (Nat.le_add_right w first), Nat.add_sub_cancel_left]

/-- A bit of the line is one of a field that holds it. -/
theorem lineBit_eq_field (l : Line) {before first width : Nat} (h : before + (first + width) = 55) {k : Nat} (hk : k < width) :
    lineBit l (before + k) = (l.extractLsb' first width).getMsbD k := by
  rw [lineBit, BitVec.getMsbD_eq_getLsbD, BitVec.getMsbD_eq_getLsbD, BitVec.getLsbD_extractLsb',
    decide_eq_true (by omega), decide_eq_true hk, decide_eq_true (by omega), Bool.true_and, Bool.true_and, Bool.true_and]
  congr 1
  omega

section Fields

variable (station : StationId) (digest : BitVec 8) (p : Payload) (check : BitVec 8)

/-- What a sender drives ahead of its check field. -/
def aheadOfCheck (station : StationId) (digest : BitVec 8) (p : Payload) : BitVec 42 :=
  0#1 ++ p.cls ++ station ++ p.kind ++ digest ++ p.bits

theorem lineWith_ahead (first width : Nat) : (lineWith station digest p check).extractLsb' (13 + first) width =
    (aheadOfCheck station digest p).extractLsb' first width := by
  have closing : (lineWith station digest p check).extractLsb' (13 + first) width =
      (aheadOfCheck station digest p ++ check).extractLsb' (8 + first) width := by
    rw [show 13 + first = 3 + (2 + (8 + first)) by omega]
    exact (extractLsb'_append_add _ 7#3 _ _).trans (extractLsb'_append_add _ 3#2 _ _)
  exact closing.trans (extractLsb'_append_add _ check _ _)

theorem aheadOfCheck_header (first width : Nat) : (aheadOfCheck station digest p).extractLsb' (32 + first) width =
    (0#1 ++ p.cls ++ station ++ p.kind).extractLsb' first width := by
  rw [show 32 + first = 24 + (8 + first) by omega]
  exact (extractLsb'_append_add _ p.bits _ _).trans (extractLsb'_append_add _ digest _ _)

theorem lineCheck_lineWith : lineCheck (lineWith station digest p check) = check :=
  (extractLsb'_append_add _ 7#3 2 8).trans ((extractLsb'_append_add _ 3#2 0 8).trans BitVec.extractLsb'_append_eq_right)

theorem linePayload_lineWith : linePayload (lineWith station digest p check) = p.bits :=
  (lineWith_ahead station digest p check 0 24).trans BitVec.extractLsb'_append_eq_right

theorem lineDigest_lineWith : lineDigest (lineWith station digest p check) = digest :=
  (lineWith_ahead station digest p check 24 8).trans
    ((extractLsb'_append_add _ p.bits 0 8).trans BitVec.extractLsb'_append_eq_right)

theorem lineKind_lineWith : lineKind (lineWith station digest p check) = p.kind :=
  (lineWith_ahead station digest p check 32 3).trans
    ((aheadOfCheck_header station digest p 0 3).trans BitVec.extractLsb'_append_eq_right)

theorem lineStation_lineWith : lineStation (lineWith station digest p check) = station :=
  (lineWith_ahead station digest p check 35 4).trans ((aheadOfCheck_header station digest p 3 4).trans
    ((extractLsb'_append_add _ p.kind 0 4).trans BitVec.extractLsb'_append_eq_right))

theorem lineCls_lineWith : lineCls (lineWith station digest p check) = p.cls :=
  (lineWith_ahead station digest p check 39 2).trans ((aheadOfCheck_header station digest p 7 2).trans
    ((extractLsb'_append_add _ p.kind 4 2).trans ((extractLsb'_append_add _ station 0 2).trans
      BitVec.extractLsb'_append_eq_right)))

/-- A bit ahead of the check field. -/
theorem lineBit_lineWith_ahead {k : Nat} (h : k < 42) :
    lineBit (lineWith station digest p check) k = (aheadOfCheck station digest p).getMsbD k := by
  have field := lineBit_eq_field (lineWith station digest p check) (before := 0) (first := 13) (by decide) h
  rw [Nat.zero_add] at field
  rw [field]
  refine congrArg (BitVec.getMsbD · k) ((lineWith_ahead station digest p check 0 42).trans ?_)
  exact BitVec.extractLsb'_eq_self

/-- The start bit is dominant. -/
theorem lineBit_lineWith_start : lineBit (lineWith station digest p check) 0 = false := by
  have start : (lineWith station digest p check).extractLsb' 54 1 = 0#1 :=
    (lineWith_ahead station digest p check 41 1).trans ((aheadOfCheck_header station digest p 9 1).trans
      ((extractLsb'_append_add _ p.kind 6 1).trans ((extractLsb'_append_add _ station 2 1).trans
        BitVec.extractLsb'_append_eq_left)))
  exact (lineBit_eq_field _ (before := 0) (first := 54) rfl Nat.zero_lt_one).trans (by rw [start]; rfl)

/-- A sender releases the verdict slots. -/
theorem lineBit_lineWith_slot {k : Nat} (h : k < 2) : lineBit (lineWith station digest p check) (50 + k) = true := by
  have slots : (lineWith station digest p check).extractLsb' 3 2 = 3#2 :=
    (extractLsb'_append_add _ 7#3 0 2).trans BitVec.extractLsb'_append_eq_right
  rw [lineBit_eq_field _ (first := 3) rfl h, slots]
  revert k
  decide

/-- A sender releases the end field. -/
theorem lineBit_lineWith_closing {k : Nat} (h : k < 3) : lineBit (lineWith station digest p check) (52 + k) = true := by
  have closing : (lineWith station digest p check).extractLsb' 0 3 = 7#3 := BitVec.extractLsb'_append_eq_right
  rw [lineBit_eq_field _ (first := 0) rfl h, closing]
  revert k
  decide

end Fields
/-- Every payload is read from its own bits. -/
theorem payloadOf_bits (p : Payload) : payloadOf p.kind p.bits = some p := by
  cases p with
  | hello nonce =>
    have zeros : (nonce ++ 0#8).extractLsb' 0 8 = 0#8 := BitVec.extractLsb'_append_eq_right
    have number : (nonce ++ 0#8).extractLsb' 8 16 = nonce := BitVec.extractLsb'_append_eq_left
    simp [payloadOf, Payload.kind, Payload.bits, zeros, number]
  | claim q level =>
    have zeros : (q ++ level ++ 0#12).extractLsb' 0 12 = 0#12 := BitVec.extractLsb'_append_eq_right
    have total : (q ++ level ++ 0#12).extractLsb' 16 8 = q :=
      (extractLsb'_append_add _ 0#12 4 8).trans BitVec.extractLsb'_append_eq_left
    have rank : (q ++ level ++ 0#12).extractLsb' 12 4 = level :=
      (extractLsb'_append_add _ 0#12 0 4).trans BitVec.extractLsb'_append_eq_right
    simp [payloadOf, Payload.kind, Payload.bits, zeros, total, rank]
  | release total =>
    have zeros : (total ++ 0#16).extractLsb' 0 16 = 0#16 := BitVec.extractLsb'_append_eq_right
    have number : (total ++ 0#16).extractLsb' 16 8 = total := BitVec.extractLsb'_append_eq_left
    simp [payloadOf, Payload.kind, Payload.bits, zeros, number]
  | renew held requested level =>
    have zeros : (held ++ requested ++ level ++ 0#4).extractLsb' 0 4 = 0#4 := BitVec.extractLsb'_append_eq_right
    have holds : (held ++ requested ++ level ++ 0#4).extractLsb' 16 8 = held :=
      (extractLsb'_append_add _ 0#4 12 8).trans
        ((extractLsb'_append_add _ level 8 8).trans BitVec.extractLsb'_append_eq_left)
    have total : (held ++ requested ++ level ++ 0#4).extractLsb' 8 8 = requested :=
      (extractLsb'_append_add _ 0#4 4 8).trans
        ((extractLsb'_append_add _ level 0 8).trans BitVec.extractLsb'_append_eq_right)
    have rank : (held ++ requested ++ level ++ 0#4).extractLsb' 4 4 = level :=
      (extractLsb'_append_add _ 0#4 0 4).trans BitVec.extractLsb'_append_eq_right
    simp [payloadOf, Payload.kind, Payload.bits, zeros, holds, total, rank]
  | evict target generation =>
    have zeros : (target ++ generation ++ 0#16).extractLsb' 0 16 = 0#16 := BitVec.extractLsb'_append_eq_right
    have whose : (target ++ generation ++ 0#16).extractLsb' 20 4 = target :=
      (extractLsb'_append_add _ 0#16 4 4).trans BitVec.extractLsb'_append_eq_left
    have stamp : (target ++ generation ++ 0#16).extractLsb' 16 4 = generation :=
      (extractLsb'_append_add _ 0#16 0 4).trans BitVec.extractLsb'_append_eq_right
    simp [payloadOf, Payload.kind, Payload.bits, zeros, whose, stamp]
  | withdraw => rfl

theorem classOfKind_kind (p : Payload) : classOfKind p.kind = some p.cls := by cases p <;> rfl

/-! ### The check (R130) -/

theorem lineBit_xor (l m : Line) (k : Nat) : lineBit (l ^^^ m) k = (lineBit l k ^^ lineBit m k) := BitVec.getMsbD_xor

theorem checkStep_eq {w : Nat} (poly r : BitVec w) (bit : Bool) :
    checkStep poly r bit = r <<< 1 ^^^ if (r.msb ^^ bit) = true then poly else 0#w := by
  cases h : r.msb <;> cases bit <;> simp [checkStep, h]

/-- One step of the division is linear in the remainder and the bit. -/
theorem checkStep_xor {w : Nat} (poly r r' : BitVec w) (bit bit' : Bool) :
    checkStep poly (r ^^^ r') (bit ^^ bit') = checkStep poly r bit ^^^ checkStep poly r' bit' := by
  have bits : ((r ^^^ r').msb ^^ (bit ^^ bit')) = ((r.msb ^^ bit) ^^ (r'.msb ^^ bit')) := by
    rw [BitVec.msb_xor, Bool.xor_assoc, Bool.xor_assoc, Bool.xor_left_comm r'.msb]
  have quotient (a b : Bool) : (if (a ^^ b) = true then poly else 0#w) =
      (if a = true then poly else 0#w) ^^^ if b = true then poly else 0#w := by
    cases a <;> cases b <;> simp
  rw [checkStep_eq, checkStep_eq, checkStep_eq, bits, quotient, BitVec.shiftLeft_xor_distrib]
  ac_rfl

theorem foldl_checkStep_xor {w : Nat} (poly : BitVec w) (f g : Nat → Bool) (ks : List Nat) (r r' : BitVec w) :
    (ks.map fun k => f k ^^ g k).foldl (checkStep poly) (r ^^^ r') =
      (ks.map f).foldl (checkStep poly) r ^^^ (ks.map g).foldl (checkStep poly) r' := by
  induction ks generalizing r r' with
  | nil => rfl
  | cons k ks ih => simp only [List.map_cons, List.foldl_cons, checkStep_xor, ih]

/-- The check of two lines added bit by bit. -/
theorem lineRemainder_xor (l m : Line) : lineRemainder (l ^^^ m) = lineRemainder l ^^^ lineRemainder m := by
  have linear := foldl_checkStep_xor 0x07#8 (fun k => lineBit l (k + 1)) (fun k => lineBit m (k + 1)) (List.range 41) 0#8 0#8
  rw [BitVec.xor_zero] at linear
  simpa only [lineRemainder, frameCheckBits, lineBit_xor] using linear

theorem lineCheck_xor (l m : Line) : lineCheck (l ^^^ m) = lineCheck l ^^^ lineCheck m := BitVec.extractLsb'_xor

/-- One set bit among bits 1 to 49 does not divide. -/
theorem lineRemainder_twoPow : ∀ k < 49,
    lineRemainder (BitVec.twoPow 55 (53 - k)) ≠ lineCheck (BitVec.twoPow 55 (53 - k)) := by decide +kernel

/-- A line whose check holds, with one of the bits 1 to 49 changed, fails it. -/
theorem receiveTests_changed {l : Line} (holds : lineRemainder l = lineCheck l) {k : Nat} (h1 : 1 ≤ k) (h49 : k ≤ 49)
    (own : StationId) (digest : BitVec 8) (budget : Nat) :
    receiveTests own digest budget (l ^^^ BitVec.twoPow 55 (54 - k)) = .badCheck := by
  have changed := lineRemainder_twoPow (k - 1) (by omega)
  rw [show 53 - (k - 1) = 54 - k by omega] at changed
  refine if_pos fun same => changed ?_
  rw [lineRemainder_xor, lineCheck_xor, holds] at same
  exact (BitVec.xor_right_inj _).1 same

section Sent

variable (station : StationId) (digest : BitVec 8) (p : Payload)

/-- The check covers nothing of its own field. -/
theorem lineRemainder_lineWith (check check' : BitVec 8) :
    lineRemainder (lineWith station digest p check) = lineRemainder (lineWith station digest p check') := by
  refine congrArg frameCheckBits (List.map_congr_left fun k hk => ?_)
  have ahead : k + 1 < 42 := by have := List.mem_range.1 hk; omega
  rw [lineBit_lineWith_ahead station digest p check ahead, lineBit_lineWith_ahead station digest p check' ahead]

theorem lineRemainder_frameLine : lineRemainder (frameLine station digest p) = lineCheck (frameLine station digest p) := by
  rw [frameLine, lineCheck_lineWith]
  exact lineRemainder_lineWith station digest p _ _

theorem lineStation_frameLine : lineStation (frameLine station digest p) = station := lineStation_lineWith _ _ _ _

theorem lineCls_frameLine : lineCls (frameLine station digest p) = p.cls := lineCls_lineWith _ _ _ _

theorem lineKind_frameLine : lineKind (frameLine station digest p) = p.kind := lineKind_lineWith _ _ _ _

theorem lineDigest_frameLine : lineDigest (frameLine station digest p) = digest := lineDigest_lineWith _ _ _ _

theorem linePayload_frameLine : linePayload (frameLine station digest p) = p.bits := linePayload_lineWith _ _ _ _

/-- A frame as sent is good for every other station of the same configuration (R133). -/
theorem receiveTests_frameLine {receiver : StationId} {budget : Nat} (other : station ≠ receiver)
    (range : p.inRange budget station = true) :
    receiveTests receiver digest budget (frameLine station digest p) = .good p := by
  unfold receiveTests
  rw [if_neg (not_not.2 (lineRemainder_frameLine station digest p)), lineKind_frameLine, lineCls_frameLine,
    if_neg (not_not.2 (classOfKind_kind p)), lineStation_frameLine, if_neg other, lineDigest_frameLine,
    if_neg (not_not.2 rfl), linePayload_frameLine, payloadOf_bits]
  exact if_pos range

theorem lineRejectDominant_frameLine : lineRejectDominant (frameLine station digest p) = false :=
  congrArg not (lineBit_lineWith_slot station digest p _ (k := 0) (by decide))

theorem lineObjectionDominant_frameLine : lineObjectionDominant (frameLine station digest p) = false :=
  congrArg not (lineBit_lineWith_slot station digest p _ (k := 1) (by decide))

theorem lineBroken_frameLine : lineBroken (frameLine station digest p) = false := by
  have closing {k : Nat} (h : k < 3) : lineBit (frameLine station digest p) (52 + k) = true :=
    lineBit_lineWith_closing station digest p _ h
  rw [lineBroken, closing (k := 0) (by decide), closing (k := 1) (by decide), closing (k := 2) (by decide)]
  rfl

end Sent

/-! ### What a sender drives (R123, R131) -/

namespace State

variable {s : State} {heard : List Bool} {a : Attempt}

/-- Up to the end of the check field a sender drives the next bit of its frame, where it has read every bit as it drove it. -/
theorem drives_sending (framing : s.port.framing = .inFrame heard) (sends : s.port.sending = some a)
    (before : heard.length < 50) : s.drives =
      if (List.range heard.length).all fun k => lineBit a.line k == heard.getD k true then lineBit a.line heard.length
      else true := by
  simp only [drives, framing, sends, checkEnd, if_pos before]

theorem all_read_iff : ((List.range heard.length).all fun k => lineBit a.line k == heard.getD k true) = true ↔
    ∀ j b, heard[j]? = some b → b = lineBit a.line j := by
  simp only [List.all_eq_true, List.mem_range, beq_iff_eq, List.getD_eq_getElem?_getD]
  constructor
  · intro h j b hb
    obtain ⟨hj, -⟩ := List.getElem?_eq_some_iff.1 hb
    rw [h j hj, hb]
    rfl
  · intro h j hj
    rw [List.getElem?_eq_getElem hj, ← h j _ (List.getElem?_eq_getElem hj)]
    rfl

end State

/-- Settles O46: the fields read back, the linear check, and what a sender drives bit by bit. -/
theorem sentFrameIsReceivedAsSent : Obligations.SentFrameIsReceivedAsSent := by
  refine ⟨fun sender receiver digest budget p => ⟨receiveTests_frameLine sender digest p, lineStation_frameLine _ _ _,
      lineDigest_frameLine _ _ _, lineCls_frameLine _ _ _, lineKind_frameLine _ _ _, lineBit_lineWith_start _ _ _ _,
      lineRejectDominant_frameLine _ _ _, lineObjectionDominant_frameLine _ _ _, lineBroken_frameLine _ _ _,
      fun k h1 h49 => receiveTests_changed (lineRemainder_frameLine _ _ _) h1 h49 _ _ _⟩,
    by decide +kernel, by decide, fun s out => by rw [State.drives, out],
    fun s heard a framing sends before => ⟨fun same => ?_, fun ⟨j, b, read, differs⟩ => ?_⟩,
    fun own digest budget => ?dominant⟩
  · rw [State.drives_sending framing sends before, if_pos (State.all_read_iff.2 same)]
  · rw [State.drives_sending framing sends before, if_neg fun all => differs (State.all_read_iff.1 all j b read)]
  case dominant =>
    have holds : lineRemainder 0#55 = lineCheck 0#55 := by decide +kernel
    have unclassed : classOfKind (lineKind 0#55) ≠ some (lineCls 0#55) := by decide
    rw [receiveTests, if_neg (not_not.2 holds), if_pos unclassed]

/-! ### Arbitration (R127, R131) -/

/-- The first bit at which two words differ decides which is the lower. -/
theorem exists_first_difference {w : Nat} {x y : BitVec w} (h : x.toNat < y.toNat) :
    ∃ k, k < w ∧ x.getMsbD k = false ∧ y.getMsbD k = true ∧ ∀ j, j < k → x.getMsbD j = y.getMsbD j := by
  obtain ⟨i, differs, above⟩ := Nat.exists_most_significant_bit (n := x.toNat ^^^ y.toNat) (by simpa using h.ne)
  simp only [Nat.testBit_xor] at differs above
  have same (j : Nat) (hj : i < j) : x.toNat.testBit j = y.toNat.testBit j := by simpa using above j hj
  have low : x.toNat.testBit i = false := by
    by_contra high
    rw [Bool.not_eq_false] at high
    have less : y.toNat < x.toNat := Nat.lt_of_testBit i (by simpa [high] using differs) high fun j hj => (same j hj).symm
    omega
  have high : y.toNat.testBit i = true := by simpa [low] using differs
  have hi : i < w := BitVec.lt_of_getLsbD high
  have bit (z : BitVec w) {j : Nat} (hj : j < w) : z.getMsbD j = z.toNat.testBit (w - 1 - j) := by
    rw [BitVec.getMsbD_eq_getLsbD, decide_eq_true hj, Bool.true_and, BitVec.getLsbD]
  have place : w - 1 - (w - 1 - i) = i := by omega
  refine ⟨w - 1 - i, by omega, ?_, ?_, fun j hj => ?_⟩
  · rw [bit x (by omega), place, low]
  · rw [bit y (by omega), place, high]
  · rw [bit x (by omega), bit y (by omega), same _ (by omega)]

theorem lineCls_append_lineStation (l : Line) : lineCls l ++ lineStation l = l.extractLsb' 48 6 :=
  BitVec.extractLsb'_append_extractLsb'_eq_extractLsb' (start₂ := 52) (len₂ := 2) (start₁ := 48) (len₁ := 4) rfl

/-- Class and id as one number. -/
theorem toNat_rank (cls : BitVec 2) (station : StationId) : (cls ++ station).toNat = 16 * cls.toNat + station.toNat := by
  rw [BitVec.toNat_append, ← Nat.shiftLeft_add_eq_or_of_lt station.isLt, Nat.shiftLeft_eq, Nat.mul_comm]

/-- The class and station id, which contend (R131). -/
theorem lineBit_frameLine_rank (station : StationId) (digest : BitVec 8) (p : Payload) {k : Nat} (h : k < 6) :
    lineBit (frameLine station digest p) (1 + k) = (p.cls ++ station).getMsbD k := by
  have rank : (frameLine station digest p).extractLsb' 48 6 = p.cls ++ station :=
    (lineCls_append_lineStation _).symm.trans
      (congrArg₂ (· ++ ·) (lineCls_frameLine station digest p) (lineStation_frameLine station digest p))
  rw [lineBit_eq_field _ (first := 48) rfl h, rank]

/-- Settles O47: class and id make one number, and the frame of the lower is dominant at the first bit that differs. -/
theorem lowerClassThenLowerIdPrevails : Obligations.LowerClassThenLowerIdPrevails := by
  intro s1 s2 d1 d2 p1 p2 lower
  have ranks : (p1.cls ++ s1).toNat < (p2.cls ++ s2).toNat := by
    rw [toNat_rank, toNat_rank]
    have id1 := s1.isLt
    rcases lower with lower | ⟨same, lower⟩
    · omega
    · rw [same]
      omega
  obtain ⟨k, within, dominant, recessive, before⟩ := exists_first_difference ranks
  rw [← lineBit_frameLine_rank s1 d1 p1 within] at dominant
  rw [← lineBit_frameLine_rank s2 d2 p2 within] at recessive
  refine ⟨1 + k, firstDifference_eq_some (by omega) (by omega) (by simp [dominant, recessive]) fun j h1 hj => ?_, by omega,
    dominant, recessive⟩
  obtain ⟨j, rfl⟩ := Nat.exists_eq_add_of_le h1
  rw [lineBit_frameLine_rank s1 d1 p1 (by omega), lineBit_frameLine_rank s2 d2 p2 (by omega), before j (by omega)]

end Sys2Proof.Machine

/-! # The line's bits out of frame

A station that watches the line counts every bit that it reads out of frame, and in a frame the dominant ones. So a line that stays
dominant sets BUS_STUCK, and one that stays recessive ends any frame and then clears it (R124, R125, R126, R142). -/

namespace Sys2Proof.Machine

theorem StationState.watchesLine_iff {st : StationState} : st.watchesLine = true ↔ st ≠ .unconfigured ∧ st ≠ .solo := by
  cases st <;> simp [StationState.watchesLine]

theorem StationState.watchesLine_of_onBus {st : StationState} (h : st.onBus = true) : st.watchesLine = true :=
  StationState.watchesLine_iff.2 (StationState.ne_of_onBus h)

/-! ### One bit of the counts -/

namespace Port

variable (p : Port)

theorem outBit_true : p.outBit true = { p with
    recessiveCount := min 16 (p.recessiveCount + 1), dominantCount := 0
    stuck := p.stuck && decide (p.recessiveCount + 1 < 16) } := by
  have full : decide (min clearBits (p.recessiveCount + 1) ≠ clearBits) = decide (p.recessiveCount + 1 < 16) :=
    decide_eq_decide.2 (by simp only [clearBits]; omega)
  simp only [outBit, countRecessive, countDominant, if_true, full]
  rfl

theorem countDominant_false : p.countDominant false = { p with
    dominantCount := min 128 (p.dominantCount + 1), stuck := p.stuck || decide (128 ≤ p.dominantCount + 1) } := by
  have full : decide (min stuckBits (p.dominantCount + 1) = stuckBits) = decide (128 ≤ p.dominantCount + 1) :=
    decide_eq_decide.2 (by simp only [stuckBits]; omega)
  simp only [countDominant, Bool.false_eq_true, if_false, full]
  rfl

theorem outBit_false : p.outBit false = { p with
    recessiveCount := 0, dominantCount := min 128 (p.dominantCount + 1)
    stuck := p.stuck || decide (128 ≤ p.dominantCount + 1) } := by
  rw [outBit, countDominant_false]
  rfl

theorem freeBit_true : p.freeBit true = p.outBit true := rfl

/-- A dominant bit of a bus that is not idle starts no frame. -/
theorem freeBit_false (busy : p.recessiveCount < 6) : p.freeBit false = p.outBit false := by
  have idle : p.idle = false := by
    have few : ¬ idleBits ≤ p.recessiveCount := Nat.not_le_of_lt busy
    simp [idle, few]
  rw [freeBit, idle]
  rfl

/-- Whether or not it starts a frame, a dominant bit is counted. -/
theorem freeBit_false_counts : (p.freeBit false).dominantCount = min 128 (p.dominantCount + 1) ∧
    (p.freeBit false).stuck = (p.stuck || decide (128 ≤ p.dominantCount + 1)) := by
  unfold freeBit
  split
  · rw [countDominant_false]
    exact ⟨rfl, rfl⟩
  · rw [outBit_false]
    exact ⟨rfl, rfl⟩

end Port

namespace State

variable {s x y : State} {l : Line} {level : Bool} {n most : Nat}

/-- The station reads the line's bits: it is out of reset, and neither UNCONFIGURED nor SOLO. -/
def Listens (s : State) : Prop := s.heldInReset = false ∧ s.ctl.station.watchesLine = true

theorem listens_iff : s.Listens ↔
    ¬ (s.heldInReset = true ∨ s.ctl.station = .unconfigured ∨ s.ctl.station = .solo) := by
  rw [Listens, StationState.watchesLine_iff, not_or, not_or, Bool.not_eq_true]

theorem Listens.congr (h : s.Listens) (reset : x.inReset = s.inReset) (station : x.ctl.station = s.ctl.station) : x.Listens := by
  unfold Listens heldInReset
  rw [reset, station]
  exact h

/-- A station that does not listen reads no bit (log entry 19). -/
theorem readBit_of_deaf (h : ¬ s.Listens) (level : Bool) : s.readBit level = s := by
  cases live : s.heldInReset with
  | true => exact readBit_reset live level
  | false =>
    have blind : s.ctl.station.watchesLine = false := Bool.eq_false_iff.2 fun watches => h ⟨live, watches⟩
    have off : s.ctl.station.onBus = false :=
      Bool.eq_false_iff.2 fun on => by simp [StationState.watchesLine_of_onBus on] at blind
    rw [readBit_offBus live off, blind]
    rfl

theorem readBits_of_deaf (h : ¬ s.Listens) (bits : List Bool) : s.readBits bits = s :=
  readBits_induct (Inv := fun x => x = s) (fun x level hx => by rw [hx, readBit_of_deaf h]) rfl bits

theorem readWhile_of_deaf (h : ¬ s.Listens) (level : Bool) (going : Port → Bool) (most : Nat) :
    s.readWhile level going most = s :=
  readWhile_induct (Inv := fun x => x = s) (fun x level hx => by rw [hx, readBit_of_deaf h]) rfl level going most

/-! ### Bits that are counted and start nothing -/

/-- The state with other counts of the line's bits. -/
def counted (s : State) (r d : Nat) (k : Bool) : State :=
  { s with port := { s.port with recessiveCount := r, dominantCount := d, stuck := k } }

/-- A bit of the level is counted and does nothing else: the station is off the bus, or its port is out of frame, where a recessive
bit settles no attempt and a dominant one starts no frame. -/
def Counts (level : Bool) (s : State) : Prop :=
  s.Listens ∧ (s.ctl.station.onBus = false ∨
    s.port.framing = .outOfFrame ∧ if level then s.port.sending = none else s.port.recessiveCount < 6)

theorem Counts.readBit (h : s.Counts level) : s.readBit level = { s with port := s.port.outBit level } := by
  obtain ⟨⟨live, watches⟩, how⟩ := h
  cases on : s.ctl.station.onBus with
  | false => rw [readBit_offBus live on, if_pos watches]
  | true =>
    obtain ⟨out, quiet⟩ := how.resolve_left (by simp [on])
    rw [readBit_free live on out, freeBit]
    cases level with
    | true =>
      have silent : s.port.sending = none := quiet
      simp [Port.freeBit_true, silent]
    | false =>
      have restarted : (s.port.outBit false).idle = false := by simp [Port.idle, Port.outBit_false, idleBits]
      simp [Port.freeBit_false s.port quiet, restarted]

theorem Counts.next (h : s.Counts level) : (s.readBit level).Counts level := by
  rw [h.readBit]
  obtain ⟨listens, how⟩ := h
  refine ⟨listens, how.imp_right fun ⟨out, quiet⟩ => ⟨(Port.outBit_framing s.port level).trans out, ?_⟩⟩
  cases level with
  | true => exact (Port.outBit_sending s.port true).trans quiet
  | false => exact (by decide : 0 < 6)

theorem Counts.readBit_true (h : s.Counts true) : s.readBit true =
    s.counted (min 16 (s.port.recessiveCount + 1)) 0 (s.port.stuck && decide (s.port.recessiveCount + 1 < 16)) := by
  rw [h.readBit, Port.outBit_true]
  rfl

theorem Counts.readBit_false (h : s.Counts false) : s.readBit false =
    s.counted 0 (min 128 (s.port.dominantCount + 1)) (s.port.stuck || decide (128 ≤ s.port.dominantCount + 1)) := by
  rw [h.readBit, Port.outBit_false]
  rfl

/-- A frame off the bus is counted bit by bit, whatever it is (log entry 26). -/
theorem readBits_offBus (listens : s.Listens) (off : s.ctl.station.onBus = false) (bits : List Bool) :
    ∃ r d k, s.readBits bits = s.counted r d k := by
  refine readBits_induct (Inv := fun x => ∃ r d k, x = s.counted r d k) ?_
    ⟨s.port.recessiveCount, s.port.dominantCount, s.port.stuck, rfl⟩ bits
  rintro _ level ⟨r, d, k, rfl⟩
  have counts : (s.counted r d k).Counts level := ⟨listens, .inl off⟩
  cases level with
  | true => exact ⟨_, _, _, counts.readBit_true⟩
  | false => exact ⟨_, _, _, counts.readBit_false⟩

/-! ### Bits of one level, as long as a count asks for more -/

theorem readWhile_done {going : Port → Bool} (h : going s.port = false) : s.readWhile level going most = s := by
  cases most with
  | zero => rfl
  | succ most => rw [readWhile, h]; rfl

theorem readWhile_on {going : Port → Bool} (h : going s.port = true) :
    s.readWhile level going (most + 1) = (s.readBit level).readWhile level going most := by
  rw [readWhile, if_pos h]

/-- The dominant count asks for more bits up to 128. -/
def unset (p : Port) : Bool := decide (p.dominantCount < stuckBits)

/-- The recessive count asks for more bits up to 16. -/
def uncleared (p : Port) : Bool := decide (p.recessiveCount < clearBits)

theorem unset_iff {p : Port} : unset p = true ↔ p.dominantCount < 128 := decide_eq_true_iff

theorem uncleared_iff {p : Port} : uncleared p = true ↔ p.recessiveCount < 16 := decide_eq_true_iff

/-- Bits of one level that are counted leave the count of the other level at 0. -/
theorem readBits_counts (h : s.Counts level) (n : Nat) : ∃ r d k,
    s.readBits (List.replicate (n + 1) level) = s.counted r d k ∧ if level then d = 0 else r = 0 := by
  have bit {x : State} (h : x.Counts level) :
      ∃ r d k, x.readBit level = x.counted r d k ∧ if level then d = 0 else r = 0 := by
    cases level with
    | true => exact ⟨_, _, _, h.readBit_true, rfl⟩
    | false => exact ⟨_, _, _, h.readBit_false, rfl⟩
  induction n generalizing s with
  | zero => exact bit h
  | succ n ih =>
    obtain ⟨_, _, _, first, -⟩ := bit h
    obtain ⟨r, d, k, rest, zero⟩ := ih h.next
    refine ⟨r, d, k, ?_, zero⟩
    rw [List.replicate_succ, readBits_cons, rest, first]
    rfl

theorem readWhile_counts {going : Port → Bool} (h : s.Counts level) (more : going s.port = true) : ∃ r d k,
    s.readWhile level going (most + 1) = s.counted r d k ∧ if level then d = 0 else r = 0 := by
  obtain ⟨n, rest⟩ := Course.readWhile_eq (s.readBit level) level going most
  rw [readWhile_on more, rest]
  exact readBits_counts h n

/-! ### Any bit, in a frame or out of it -/

theorem slotsAfter_counts (s : State) (heard : List Bool) : (s.slotsAfter heard).recessiveCount = s.port.recessiveCount ∧
    (s.slotsAfter heard).dominantCount = s.port.dominantCount ∧ (s.slotsAfter heard).stuck = s.port.stuck := by
  unfold slotsAfter
  (repeat' split) <;> exact ⟨rfl, rfl, rfl⟩

/-- The end of a frame moves neither the dominant count nor BUS_STUCK. -/
theorem frameEnded_counts (y : State) (l : Line) : (y.frameEnded l).port.dominantCount = y.port.dominantCount ∧
    (y.frameEnded l).port.stuck = y.port.stuck := by
  have runs (p : Port) (v : Verdict) : (p.countRuns v).dominantCount = p.dominantCount ∧ (p.countRuns v).stuck = p.stuck := by
    unfold Port.countRuns
    split <;> exact ⟨rfl, rfl⟩
  have read : (y.frameRead l).port.dominantCount = y.port.dominantCount ∧ (y.frameRead l).port.stuck = y.port.stuck := by
    unfold frameRead
    dsimp only
    rw [applyVerdict_port]
    split
    · exact ⟨rfl, rfl⟩
    · exact runs _ _
  unfold frameEnded leaveBus
  (repeat' split) <;> exact read

theorem frameEnded_listens (h : y.Listens) (l : Line) : (y.frameEnded l).Listens := by
  obtain ⟨-, -, -, reset⟩ := y.applyVerdict_banks (y.verdict l)
  obtain ⟨-, -, -, reset'⟩ := (y.frameRead l).leaveBus_banks (y.verdict l) (lineBroken l)
  obtain ⟨live, watches⟩ := h
  refine ⟨?_, ?_⟩
  · unfold heldInReset
    rw [frameEnded, reset']
    exact (congrArg (fun r : ResetHold => r.powerOn || r.pin || r.command) reset).trans live
  · have station : (y.frameRead l).ctl.station = y.ctl.station := y.applyVerdict_station _
    unfold frameEnded leaveBus
    split
    · rename_i f hf
      have fault : f = .idConflict ∨ f = .configMismatch ∨ f = .txFault ∨ f = .rxFault := by
        split at hf
        · cases hf
        · exact Port.faultAfter_cases hf
      show f.watchesLine = true
      rcases fault with rfl | rfl | rfl | rfl <;> rfl
    · split
      · rfl
      · rw [station]
        exact watches

theorem Listens.settle (h : y.Listens) : y.settle.Listens := h.congr (settle_inReset y) (settle_ctl_station y)

theorem endFrame_listens (h : y.Listens) (l : Line) : (y.endFrame l).Listens := (frameEnded_listens h l).settle

/-- A dominant bit is counted wherever it falls. -/
theorem readBit_dominant (h : s.Listens) : (s.readBit false).Listens ∧
    (s.readBit false).port.dominantCount = min 128 (s.port.dominantCount + 1) ∧
    (s.readBit false).port.stuck = (s.port.stuck || decide (128 ≤ s.port.dominantCount + 1)) := by
  obtain ⟨live, watches⟩ := id h
  cases on : s.ctl.station.onBus with
  | false =>
    rw [readBit_offBus live on, if_pos watches, Port.outBit_false]
    exact ⟨h, rfl, rfl⟩
  | true =>
    cases framing : s.port.framing with
    | outOfFrame =>
      rcases readBit_free_cases live on framing false with read | ⟨recessive, -⟩
      · rw [read]
        exact ⟨h, s.port.freeBit_false_counts⟩
      · cases recessive
    | inFrame heard =>
      have level : s.readLevel heard false = false := by
        unfold readLevel
        (repeat' split) <;> rfl
      rw [readBit_inFrame live on framing, frameBit, level]
      dsimp only
      split
      · obtain ⟨-, dominant, stuck⟩ := s.slotsAfter_counts (heard ++ [false])
        rw [Port.countDominant_false, dominant, stuck]
        exact ⟨h, rfl, rfl⟩
      · obtain ⟨dominant, stuck⟩ := frameEnded_counts { s with port := s.port.countDominant false }
          (lineOfBits (heard ++ [false]))
        have listens : ({ s with port := s.port.countDominant false } : State).Listens := h
        refine ⟨endFrame_listens listens _, ?_, ?_⟩ <;> rw [endFrame_eq, settle_port]
        · rw [dominant, Port.countDominant_false]
        · rw [stuck, Port.countDominant_false]

/-- The line that stays dominant sets BUS_STUCK. -/
theorem readWhile_dominant (h : s.Listens) (left : s.port.dominantCount + (n + 1) = 128) (enough : n + 1 ≤ most) :
    (s.readWhile false unset most).port.dominantCount = 128 ∧ (s.readWhile false unset most).port.stuck = true := by
  induction n generalizing s most with
  | zero =>
    obtain ⟨most, rfl⟩ := Nat.exists_eq_add_of_le' enough
    have more : unset s.port = true := unset_iff.2 (by omega)
    obtain ⟨-, count, stuck⟩ := readBit_dominant h
    rw [left] at count stuck
    rw [readWhile_on more, readWhile_done (Bool.eq_false_iff.2 (mt unset_iff.1 (by omega))), count, stuck]
    simp
  | succ n ih =>
    obtain ⟨most, rfl⟩ := Nat.exists_eq_add_of_le' enough
    have more : unset s.port = true := unset_iff.2 (by omega)
    obtain ⟨listens, count, -⟩ := readBit_dominant h
    rw [← Nat.add_assoc, readWhile_on more]
    exact ih listens (by omega) (by omega)

/-- So many recessive bits are enough to clear BUS_STUCK: those that are left of a frame, and then 16. A station that `on` tells to
have been on the bus is out of frame from the frame's end on. -/
def Clearing (on : Bool) (n : Nat) (s : State) : Prop :=
  s.Listens ∧
    ((s.ctl.station.onBus = true ∧ s.port.recessiveCount < 16 ∧
      ∃ heard, s.port.framing = .inFrame heard ∧ 71 ≤ n + heard.length ∧ 17 ≤ n) ∨
    ((s.ctl.station.onBus = true → s.port.framing = .outOfFrame) ∧ (on = true → s.port.framing = .outOfFrame) ∧
      s.port.recessiveCount ≤ 16 ∧ 16 ≤ n + s.port.recessiveCount ∧ (s.port.recessiveCount = 16 → s.port.stuck = false)))

/-- A recessive bit out of frame is counted, and moves neither the framing nor the station. -/
theorem readBit_recessive (h : s.Listens) (out : s.ctl.station.onBus = true → s.port.framing = .outOfFrame) :
    (s.readBit true).Listens ∧ (s.readBit true).ctl.station = s.ctl.station ∧
    (s.readBit true).port.framing = s.port.framing ∧
    (s.readBit true).port.recessiveCount = min 16 (s.port.recessiveCount + 1) ∧
    (s.readBit true).port.stuck = (s.port.stuck && decide (s.port.recessiveCount + 1 < 16)) := by
  obtain ⟨live, watches⟩ := id h
  cases on : s.ctl.station.onBus with
  | false =>
    rw [readBit_offBus live on, if_pos watches, Port.outBit_true]
    exact ⟨h, rfl, rfl, rfl, rfl⟩
  | true =>
    rcases readBit_free_cases live on (out on) true with read | ⟨-, -, read⟩ <;>
      rw [read, Port.freeBit_true, Port.outBit_true]
    · exact ⟨h, rfl, rfl, rfl, rfl⟩
    · refine ⟨Listens.settle h, settle_ctl_station _, ?_, ?_, ?_⟩ <;> rw [settle_port]

theorem Clearing.readBit {on : Bool} (h : s.Clearing on (n + 1)) (more : s.port.recessiveCount < 16) :
    (s.readBit true).Clearing on n := by
  obtain ⟨listens, ⟨bus, few, heard, framing, left, much⟩ | ⟨out, out', -, left, -⟩⟩ := h
  · obtain ⟨live, -⟩ := id listens
    rw [readBit_inFrame live bus framing, frameBit]
    dsimp only
    split
    · rename_i short
      simp only [List.length_append, List.length_singleton, frameBits] at short
      refine ⟨listens, .inl ⟨bus, ?_, _, rfl, ?_, by omega⟩⟩
      · obtain ⟨count, -⟩ := s.slotsAfter_counts (heard ++ [s.readLevel heard true])
        exact ((Port.countDominant_recessiveCount _ _).trans count).trans_lt few
      · simp only [List.length_append, List.length_singleton]
        omega
    · obtain ⟨out, few⟩ := frameEnded_port { s with port := s.port.countDominant (s.readLevel heard true) }
        (lineOfBits (heard ++ [s.readLevel heard true]))
      simp only [idleBits] at few
      have counted : ({ s with port := s.port.countDominant (s.readLevel heard true) } : State).Listens := listens
      refine ⟨endFrame_listens counted _, .inr ?_⟩
      rw [endFrame_eq, settle_port]
      exact ⟨fun _ => out, fun _ => out, by omega, by omega, by omega⟩
  · obtain ⟨listens', station, framing, count, stuck⟩ := readBit_recessive listens out
    refine ⟨listens', .inr ?_⟩
    rw [station, framing, count, stuck]
    refine ⟨out, out', Nat.min_le_left _ _, by omega, fun full => ?_⟩
    rw [decide_eq_false (by omega), Bool.and_false]

/-- The line that stays recessive ends any frame, and then clears BUS_STUCK. -/
theorem readWhile_recessive {on : Bool} (h : s.Clearing on most) :
    (s.readWhile true uncleared most).port.recessiveCount = 16 ∧ (s.readWhile true uncleared most).port.stuck = false ∧
      (on = true → (s.readWhile true uncleared most).port.framing = .outOfFrame) := by
  have cleared {x : State} {n : Nat} (h : x.Clearing on n) (full : ¬ x.port.recessiveCount < 16) :
      x.port.recessiveCount = 16 ∧ x.port.stuck = false ∧ (on = true → x.port.framing = .outOfFrame) := by
    obtain ⟨-, ⟨-, few, -⟩ | ⟨-, out, most, -, stuck⟩⟩ := h
    · exact absurd few full
    · exact ⟨by omega, stuck (by omega), out⟩
  induction most generalizing s with
  | zero =>
    have full : ¬ s.port.recessiveCount < 16 := by
      obtain ⟨-, ⟨-, -, heard, -, -, much⟩ | ⟨-, -, -, left, -⟩⟩ := h <;> omega
    exact cleared (x := s) h full
  | succ most ih =>
    by_cases more : s.port.recessiveCount < 16
    · rw [readWhile_on (uncleared_iff.2 more)]
      exact ih (h.readBit more)
    · rw [readWhile_done (Bool.eq_false_iff.2 (mt uncleared_iff.1 more))]
      exact cleared h more

/-- Before the frame row the port may be anywhere in a frame, or out of it. -/
theorem clearing_begin (h : s.Listens) (few : s.port.recessiveCount < 16) : s.Clearing s.ctl.station.onBus 71 := by
  have counting (out : s.ctl.station.onBus = true → s.port.framing = .outOfFrame) : s.Clearing s.ctl.station.onBus 71 :=
    ⟨h, .inr ⟨out, out, few.le, by omega, by omega⟩⟩
  cases on : s.ctl.station.onBus with
  | false => exact on ▸ counting (by simp [on])
  | true =>
    cases framing : s.port.framing with
    | outOfFrame => exact on ▸ counting fun _ => framing
    | inFrame heard => exact ⟨h, .inl ⟨on, few, heard, framing, by omega, by omega⟩⟩

/-! ### Start bits and attempts (R125, R126) -/

/-- A dominant bit of an idle bus is a start bit for a station on the bus. -/
theorem readBit_startBit (live : s.heldInReset = false) (on : s.ctl.station.onBus = true)
    (out : s.port.framing = .outOfFrame) (idle : 6 ≤ s.port.recessiveCount) : s.readBit false =
      { s with port := { s.port with
        framing := .inFrame [false], recessiveCount := 0, dominantCount := min 128 (s.port.dominantCount + 1)
        stuck := s.port.stuck || decide (128 ≤ s.port.dominantCount + 1) } } := by
  have idle : s.port.idle = true := by simp [Port.idle, out, idleBits, idle]
  rw [readBit_free live on out, freeBit, Port.freeBit, idle, Port.countDominant_false]
  simp [Port.idle]

theorem exec_attemptStart_of_stuck (stuck : s.port.stuck = true) : exec .attemptStart s = .next s := by
  have none : s.startAttempt = s := if_neg (by simp [stuck])
  show execAttemptStart s = .next s
  rw [execAttemptStart, none, ite_self]

theorem exec_frameEnd_one (level : Bool) (s : State) : exec (.frameEnd 0 [level]) s = .next (s.readBit level) := rfl

end State

/-- Settles O49: the counts bit by bit, and the rows that go on until a count is full. -/
theorem lineIsCountedOffTheBus : Obligations.LineIsCountedOffTheBus := by
  intro s n bits bit
  have set (s : State) : exec .busStuckSet s = .next (s.readWhile false State.unset 128) := rfl
  have clear (s : State) : exec .busStuckClear s = .next (s.readWhile true State.uncleared 71) := rfl
  refine ⟨fun still => ?still, fun t ht => ?row, fun listens => ?listens, State.exec_attemptStart_of_stuck⟩
  case still =>
    have deaf : ¬ s.Listens := fun listens => State.listens_iff.1 listens still
    rw [set, clear, State.exec_frameEnd_eq, State.readWhile_of_deaf deaf, State.readWhile_of_deaf deaf,
      State.readBits_of_deaf deaf, State.readBits_of_deaf deaf]
    exact ⟨rfl, rfl, rfl⟩
  case row =>
    rw [State.exec_frameEnd_eq] at ht ⊢
    cases ht
    rw [State.readBits_append]
    rfl
  case listens =>
    have listens : s.Listens := State.listens_iff.2 listens
    refine ⟨fun off => ?_, fun quiet => ?recessive, fun busy => ?dominant, fun on out idle => ?_, fun unset => ?_,
      fun uncleared => ?_⟩
    · have off : s.ctl.station.onBus = false := Bool.eq_false_iff.2 off
      obtain ⟨r, d, k, read⟩ := State.readBits_offBus listens off (List.replicate n true ++ bits)
      rw [State.readBits_append] at read
      exact ⟨r, d, k, congrArg _ read⟩
    case recessive =>
      have counts : s.Counts true := ⟨listens, quiet.imp_left Bool.eq_false_iff.2⟩
      refine ⟨congrArg _ counts.readBit_true, fun uncleared => ?_⟩
      obtain ⟨r, d, k, read, rfl⟩ := State.readWhile_counts (most := 70) counts (State.uncleared_iff.2 uncleared)
      obtain ⟨full, free, -⟩ := State.readWhile_recessive (State.clearing_begin listens uncleared)
      rw [read] at full free
      obtain ⟨rfl, rfl⟩ : r = 16 ∧ k = false := ⟨full, free⟩
      rw [clear, read]
      rfl
    case dominant =>
      have counts : s.Counts false := ⟨listens, busy.imp_left Bool.eq_false_iff.2⟩
      refine ⟨congrArg _ counts.readBit_false, fun unset => ?_⟩
      obtain ⟨r, d, k, read, rfl⟩ := State.readWhile_counts (most := 127) counts (State.unset_iff.2 unset)
      obtain ⟨full, stuck⟩ :=
        State.readWhile_dominant (n := 127 - s.port.dominantCount) (most := 128) listens (by omega) (by omega)
      rw [read] at full stuck
      obtain ⟨rfl, rfl⟩ : d = 128 ∧ k = true := ⟨full, stuck⟩
      rw [set, read]
      rfl
    · exact congrArg _ (State.readBit_startBit listens.1 on out idle)
    · obtain ⟨count, stuck⟩ :=
        State.readWhile_dominant (n := 127 - s.port.dominantCount) (most := 128) listens (by omega) (by omega)
      exact ⟨_, set s, count, stuck, State.exec_attemptStart_of_stuck stuck⟩
    · exact ⟨_, clear s, State.readWhile_recessive (State.clearing_begin listens uncleared)⟩

end Sys2Proof.Machine

/-! # A frame that a station does not apply

A frame that fails a receive test is applied by no station. Where it is not broken it is counted as rejected, or it shows a fault: a
second station of the own id, or another configuration (R133, R134, R139, R141, R149 to R151). -/

namespace Sys2Proof.Machine

/-! ### Findings (R133) -/

theorem Finding.rejects_iff {f : Finding} : f.rejects = true ↔ f = .badCheck ∨ f = .malformed ∨ f = .outOfRange := by
  cases f <;> simp [Finding.rejects]

theorem Finding.ne_good_of_rejects {f : Finding} (h : f.rejects = true) (p : Payload) : f ≠ .good p := by
  rintro rfl
  cases h

theorem carries_unfit {f : Finding} (unfit : ∀ p, f ≠ .good p) (own : StationId) (l : Line) :
    (Part.received f).carries own l = none := by
  cases f with
  | good p => exact absurd rfl (unfit p)
  | badCheck | malformed | ownId | foreignDigest | outOfRange => rfl

/-- The reject run after a frame that is not good. -/
def Port.rejectRunAfter (p : Port) (broken : Bool) (f : Finding) : Nat :=
  if !broken && f.rejects then min rejectRunLimit (p.rejectRun + 1) else p.rejectRun

/-- The fault that a frame that is not good shows (R136, R149). -/
def Port.faultOf (p : Port) (broken : Bool) (f : Finding) : Option StationState :=
  if broken then none else { p with rejectRun := p.rejectRunAfter broken f }.faultAfter (.received f)

section FaultOf

variable {p : Port} {f : Finding}

theorem Port.faultOf_ownId : p.faultOf false .ownId = some .idConflict := rfl

theorem Port.faultOf_foreignDigest : p.faultOf false .foreignDigest = some .configMismatch := rfl

/-- At the eighth rejection the station enters RX_FAULT (R141). -/
theorem Port.faultOf_rejects (h : f.rejects = true) (few : p.rejectionRun < 16) :
    p.faultOf false f = if 7 ≤ p.rejectRun then some .rxFault else none := by
  have limit : (rejectRunLimit ≤ min rejectRunLimit (p.rejectRun + 1)) = (7 ≤ p.rejectRun) :=
    propext (by simp only [rejectRunLimit]; omega)
  have few : ¬ rejectionRunLimit ≤ p.rejectionRun := Nat.not_le_of_lt few
  rcases Finding.rejects_iff.1 h with rfl | rfl | rfl <;>
    simp [Port.faultOf, Port.faultAfter, Port.rejectRunAfter, Finding.rejects, few, limit]

theorem Port.faultOf_isFault {broken : Bool} {g : StationState} (h : p.faultOf broken f = some g) : g.isFault = true := by
  unfold Port.faultOf at h
  split at h
  · cases h
  · rcases Port.faultAfter_cases h with rfl | rfl | rfl | rfl <;> rfl

theorem Port.countRuns_unfit (unfit : ∀ q, f ≠ .good q) {v : Verdict} (part : v.part = .received f) :
    p.countRuns v = { p with rejectRun := p.rejectRunAfter false f } := by
  cases f with
  | good q => exact absurd rfl (unfit q)
  | badCheck | malformed | ownId | foreignDigest | outOfRange => rw [Port.countRuns, part]; rfl

end FaultOf

/-- A contender that lost after the id field has read its own id there. -/
theorem lineStation_of_lostAt {a : Attempt} {l : Line} {k : Nat} (lost : a.LostAt l k) (late : 7 ≤ k) :
    lineStation l = lineStation a.line := by
  obtain ⟨-, -, -, -, before⟩ := lost
  refine BitVec.eq_of_getMsbD_eq fun i hi => ?_
  have bit (l : Line) : (lineStation l).getMsbD i = lineBit l (3 + i) := (lineBit_eq_field l rfl hi).symm
  rw [bit, bit]
  exact (before (3 + i) (by omega) (by omega)).symm

/-- A frame of the own id that passes the first two tests is found to be one (R133, R150). -/
theorem receiveTests_ownId {own : StationId} {digest : BitVec 8} {budget : Nat} {l : Line} (station : lineStation l = own)
    (check : receiveTests own digest budget l ≠ .badCheck) (formed : receiveTests own digest budget l ≠ .malformed) :
    receiveTests own digest budget l = .ownId := by
  have checks : lineRemainder l = lineCheck l := by_contra fun fails => check (if_pos fails)
  rw [receiveTests, if_neg (not_not.2 checks)] at formed ⊢
  have classed : classOfKind (lineKind l) = some (lineCls l) := by_contra fun fails => formed (if_pos fails)
  rw [if_neg (not_not.2 classed), if_pos station]

/-! ### A fault state entered (R103, R149) -/

/-- What entering a fault state leaves. -/
structure InFault (s : State) (f : StationState) (e : State) : Prop where
  station : e.ctl.station = f
  transmit : e.ctl.transmit = emptyTransmit
  own : e.ctl.own = { s.ctl.own with held := 0, waiting := none }
  others : ∀ k, k ≠ s.ctl.id → e.ctl.table.entry k = s.ctl.table.entry k
  lapsed : e.ctl.lapsed = false
  window : e.ctl.window = none
  link : e.link = { s.link with stationNews := true }
  sending : e.port.sending = none
  pauses : ∀ b, (e.bank b).hostRunning = true → (e.bank b).pauseOrder = true

theorem enterFault_settle (x : State) {f : StationState} (fault : f.isFault = true) : InFault x f (x.enterFault f).settle := by
  have other : f ≠ .solo ∧ f ≠ .inService ∧ f ≠ .leaving := by cases f <;> simp [StationState.isFault] at fault ⊢
  obtain ⟨solo, inService, leaving⟩ := other
  have table := State.settle_ctl_table (x.enterFault f) solo
  exact {
    station := State.settle_ctl_station _
    transmit := State.settle_transmit inService leaving solo
    own := by
      rw [Controller.own, table, State.settle_ctl_id]
      exact Controller.setOwn_own x.ctl _
    others := fun k hk => by
      rw [table]
      exact PerStation.entry_put_other _ hk _
    lapsed := State.settle_ctl_lapsed _
    window := State.settle_ctl_window _
    link := State.settle_link _
    sending := by rw [State.settle_port]; rfl
    pauses := State.settle_pauses (by
      have closed : f ≠ .inService ∧ f ≠ .solo := ⟨inService, solo⟩
      simp [State.enterFault, Controller.mayDraw, closed]) }

theorem InFault.congr {s x e : State} {f : StationState} (h : InFault x f e) (ctl : x.ctl = s.ctl) (link : x.link = s.link) :
    InFault s f e := by
  obtain ⟨station, transmit, own, others, lapsed, window, news, sending, pauses⟩ := h
  rw [ctl] at own others
  rw [link] at news
  exact ⟨station, transmit, own, others, lapsed, window, news, sending, pauses⟩

namespace State

variable {s y t : State} {line l : Line} {f : Finding}

/-! ### The end of the frame (R136) -/

section Unfit

variable (unfit : ∀ p, f ≠ .good p)

include unfit

section EndFrame

variable (part : y.ctl.part y.port.sending l = .received f)

include part

theorem applies_unfit : (y.verdict l).applies = none := by
  simp [verdict, part, carries_unfit unfit]

/-- Only the port takes note of the frame. -/
theorem frameRead_unfit : y.frameRead l = { y with port :=
    { y.port.frameOver l with rejectRun := y.port.rejectRunAfter (lineBroken l) f } } := by
  have same : y.applyVerdict (y.verdict l) = y := by rw [applyVerdict, applies_unfit unfit part]
  unfold frameRead
  rw [same]
  cases lineBroken l with
  | true => rfl
  | false =>
    rw [if_neg Bool.false_ne_true, Port.countRuns_unfit unfit part]
    rfl

/-- The station enters the fault that the frame shows, and otherwise stays. -/
theorem endFrame_unfit : y.endFrame l = match y.port.faultOf (lineBroken l) f with
    | some g => ((y.frameRead l).enterFault g).settle
    | none => (y.frameRead l).settle := by
  have fault : (if lineBroken l then none else (y.frameRead l).port.faultAfter (y.verdict l).part) =
      y.port.faultOf (lineBroken l) f := by
    have found : (y.verdict l).part = .received f := part
    rw [frameRead_unfit unfit part, found]
    rfl
  rw [endFrame_eq, frameEnded, leaveBus, fault, applies_unfit unfit part]
  cases y.port.faultOf (lineBroken l) f <;> simp

end EndFrame

/-! ### The frame as the station hears it -/

section Hears

variable (receives : Receives s.port.sending line)
  (found : receiveTests s.ctl.id s.ctl.digest s.ctl.budget line = f)

include receives found

theorem checkRead_unfit : s.checkRead (lineUpTo line 50) =
    { s.port with judgement := none, droveReject := f.rejects, droveObjection := false } := by
  have part : s.ctl.part s.port.sending (lineOfBits (lineUpTo line 50)) = .received f := by
    rw [(receives.congr (lineBit_checkField line)).part, receiveTests_congr (lineBit_checkField line), found]
  rw [checkRead, part, carries_unfit unfit]
  simp [Controller.judges, Part.rejects]

theorem willObject_unfit : s.willObject line = false := by
  simp [willObject, checkRead_unfit unfit receives found]

omit unfit in
theorem AtEnd.part_received (ends : s.AtEnd line y) : y.ctl.part y.port.sending (s.hears line) = .received f := by
  rw [ends.ctl, ends.sending, (receives.congr (lineBit_hears s line)).part, receiveTests_congr (lineBit_hears s line), found]

end Hears

end Unfit

/-- What a frame that is not good leaves of a station that has received it to its end. -/
structure TakesUnfit (s : State) (line : Line) (f : Finding) (t : State) : Prop where
  droveReject : t.port.droveReject = f.rejects
  droveObjection : t.port.droveObjection = false
  rejectRun : t.port.rejectRun = s.port.rejectRunAfter (lineBroken line) f
  rejectionRun : t.port.rejectionRun = s.port.rejectionRun
  faults : ∀ g, s.port.faultOf (lineBroken line) f = some g → InFault s g t
  stays : s.port.faultOf (lineBroken line) f = none → t.ctl.table = s.ctl.table ∧ t.ctl.station = s.ctl.station ∧
    t.link = s.link ∧ t.port.sending = s.port.sending.filter fun a => a.lostEarly (s.hears line)

/-- A frame that is not good, from the idle bus or one that a contender has lost to, is read to its end. -/
theorem exec_frameEnd_unfit {n : Nat} (live : s.heldInReset = false) (on : s.ctl.station.onBus = true)
    (start : lineBit line 0 = false) (receives : Receives s.port.sending line)
    (found : receiveTests s.ctl.id s.ctl.digest s.ctl.budget line = f) (unfit : ∀ p, f ≠ .good p)
    (enters : (s.port.framing = .outOfFrame ∧ s.port.sending = none ∧ 6 ≤ s.port.recessiveCount + n) ∨
      (s.port.framing = .inFrame [] ∧ n = 0)) :
    ∃ t, exec (.frameEnd n (lineBits line)) s = .next t ∧ s.TakesUnfit line f t := by
  obtain ⟨y, ends, run⟩ := exec_frameEnd_received live on start enters
  have part := ends.part_received receives found
  have broken : lineBroken (s.hears line) = lineBroken line := lineBroken_heardLine line _ _
  have ended := endFrame_unfit unfit part
  have read := frameRead_unfit unfit part
  have fault : y.port.faultOf (lineBroken line) f = s.port.faultOf (lineBroken line) f := by
    unfold Port.faultOf Port.rejectRunAfter Port.faultAfter
    rw [ends.rejectRun, ends.rejectionRun]
  have run' : y.port.rejectRunAfter (lineBroken line) f = s.port.rejectRunAfter (lineBroken line) f := by
    unfold Port.rejectRunAfter
    rw [ends.rejectRun]
  rw [broken, fault] at ended
  rw [broken, run'] at read
  have port : (y.endFrame (s.hears line)).port.droveReject = (y.frameRead (s.hears line)).port.droveReject ∧
      (y.endFrame (s.hears line)).port.droveObjection = (y.frameRead (s.hears line)).port.droveObjection ∧
      (y.endFrame (s.hears line)).port.rejectRun = (y.frameRead (s.hears line)).port.rejectRun ∧
      (y.endFrame (s.hears line)).port.rejectionRun = (y.frameRead (s.hears line)).port.rejectionRun := by
    rw [ended]
    split <;> rw [settle_port] <;> exact ⟨rfl, rfl, rfl, rfl⟩
  rw [read] at port
  obtain ⟨reject, objection, rejectRun, rejectionRun⟩ := port
  refine ⟨_, run, {
    droveReject := reject.trans (ends.droveReject.trans (by rw [checkRead_unfit unfit receives found]))
    droveObjection := objection.trans (ends.droveObjection.trans (willObject_unfit unfit receives found))
    rejectRun
    rejectionRun := rejectionRun.trans ends.rejectionRun
    faults := fun g shown => ?_
    stays := fun shown => ?_ }⟩
  · rw [ended, shown]
    exact (enterFault_settle (y.frameRead (s.hears line)) (Port.faultOf_isFault shown)).congr
      (by rw [read]; exact ends.ctl) (by rw [read]; exact ends.link)
  · have solo : (y.frameRead (s.hears line)).ctl.station ≠ .solo := by
      rw [read]
      exact ends.ctl ▸ (StationState.ne_of_onBus on).2
    rw [ended, shown]
    refine ⟨?_, ?_, ?_, ?_⟩
    · rw [settle_ctl_table _ solo, read, ends.ctl]
    · rw [settle_ctl_station, read, ends.ctl]
    · rw [settle_link, read, ends.link]
    · rw [settle_port, read]
      exact congrArg (Option.filter _) ends.sending

namespace TakesUnfit

variable (h : s.TakesUnfit line f t)

include h

/-- An attempt lost in the class or id field stays open where the station shows no fault (R139). -/
theorem sending_lost (shown : s.port.faultOf (lineBroken line) f = none) {a : Attempt} {k : Nat}
    (sends : s.port.sending = some a) (lost : a.LostAt line k) : t.port.sending = if k ≤ 6 then some a else none := by
  obtain ⟨-, -, -, sending⟩ := h.stays shown
  rw [sending, sends, Option.filter_some, (lost.congr (lineBit_hears s line)).lostEarly]
  simp only [decide_eq_true_eq]

end TakesUnfit

end State

/-- Settles O51: what the receive tests find decides the reject slot, the run, and the fault that the frame shows. -/
theorem rejectedAndForeignFramesAreNotApplied : Obligations.RejectedAndForeignFramesAreNotApplied := by
  intro s n line lost live on start how
  have received : Receives s.port.sending line ∧
      ((s.port.framing = .outOfFrame ∧ s.port.sending = none ∧ 6 ≤ s.port.recessiveCount + n) ∨
        (s.port.framing = .inFrame [] ∧ n = 0)) := by
    rcases lost with - | ⟨a, k⟩
    · obtain ⟨out, silent, idle⟩ := how
      exact ⟨silent ▸ receives_none, .inl ⟨out, silent, idle⟩⟩
    · obtain ⟨inFrame, sends, zero, loss⟩ := how
      refine ⟨fun b hb => ?_, .inr ⟨inFrame, zero⟩⟩
      obtain rfl := Option.some.inj (sends.symm.trans hb)
      exact ⟨k, loss⟩
  have loses (a : Attempt) (k : Nat) (h : lost = some (a, k)) : s.port.sending = some a ∧ a.LostAt line k := by
    subst h
    obtain ⟨-, sends, -, loss⟩ := how
    exact ⟨sends, loss⟩
  obtain ⟨receives, enters⟩ := received
  have takes {f : Finding} (found : receiveTests s.ctl.id s.ctl.digest s.ctl.budget line = f) (unfit : ∀ p, f ≠ .good p) :=
    State.exec_frameEnd_unfit live on start receives found unfit enters
  intro run found bad faulted
  have fault {t : State} {f : Finding} {g : StationState} (h : s.TakesUnfit line f t)
      (shown : s.port.faultOf (lineBroken line) f = some g) : faulted t g := by
    obtain ⟨station, transmit, own, others, lapsed, window, link, sending, pauses⟩ := h.faults g shown
    exact ⟨station, transmit, own, others, lapsed, window, link, sending, h.droveObjection, h.rejectionRun, pauses⟩
  refine ⟨fun isBad whole few => ?rejected, fun own whole => ?ownId, fun a k h late station check formed => ?lostLate,
    fun foreign whole => ?foreign, fun unfit broken => ?broken⟩
  case rejected =>
    have rejects : found.rejects = true := Finding.rejects_iff.2 isBad
    obtain ⟨t, ran, h⟩ := takes (f := found) rfl (Finding.ne_good_of_rejects rejects)
    have shown := Port.faultOf_rejects rejects few
    rw [← whole] at shown
    refine ⟨t, ran, h.droveReject.trans rejects, h.droveObjection, ?_, h.rejectionRun, fun below => ?_, fun limit => ?_⟩
    · rw [h.rejectRun, Port.rejectRunAfter, whole, rejects]
      rfl
    · rw [if_neg (Nat.not_le_of_lt below)] at shown
      obtain ⟨table, station, link, -⟩ := h.stays shown
      refine ⟨table, station, link, fun a k lost => ?_⟩
      obtain ⟨sends, loss⟩ := loses a k lost
      exact h.sending_lost shown sends loss
    · exact fault h (shown.trans (if_pos limit))
  case ownId =>
    obtain ⟨t, ran, h⟩ := takes own nofun
    refine ⟨t, ran, fault h (by rw [whole]; exact Port.faultOf_ownId), h.droveReject, h.rejectRun.trans ?_⟩
    simp [Port.rejectRunAfter, Finding.rejects]
  case lostLate =>
    obtain ⟨-, loss⟩ := loses a k h
    exact receiveTests_ownId ((lineStation_of_lostAt loss late).trans station) check formed
  case foreign =>
    obtain ⟨t, ran, h⟩ := takes foreign nofun
    refine ⟨t, ran, fault h (by rw [whole]; exact Port.faultOf_foreignDigest), h.droveReject, h.rejectRun.trans ?_⟩
    simp [Port.rejectRunAfter, Finding.rejects]
  case broken =>
    obtain ⟨t, ran, h⟩ := takes (f := found) rfl unfit
    obtain ⟨table, station, link, -⟩ := h.stays (by rw [broken]; rfl)
    refine ⟨t, ran, station, table, ?_, h.droveObjection, ?_, h.rejectionRun, link⟩
    · rw [h.droveReject, Finding.rejects_iff]
    · rw [h.rejectRun, broken]
      rfl

end Sys2Proof.Machine

/-! # The start of an attempt

What is no longer wanted leaves the set, and the first frame that remains and that the state may send is the one chosen (R126, R137,
R138). -/

namespace Sys2Proof.Machine

theorem Controller.renewalReached_iff {c : Controller} :
    c.renewalReached = true ↔ ∃ n, c.renewal = some n ∧ c.leaseTicks / 2 ≤ n := by
  unfold Controller.renewalReached
  cases c.renewal with
  | none => simp
  | some n => simpa only [Option.some.injEq, exists_eq_left'] using ⟨of_decide_eq_true, decide_eq_true⟩

namespace State

variable {s : State}

/-! ### What is still wanted (R92, R93, R99, R154) -/

theorem releaseWanted_iff : s.releaseWanted = true ↔
    if s.ctl.station = .leaving then 0 < s.holding else s.need < s.holding := by
  cases h : s.ctl.station <;> simp [releaseWanted, h, Nat.pos_iff_ne_zero]

theorem releaseTotal_eq (s : State) : s.releaseTotal = if s.ctl.station = .leaving then 0 else s.need := by
  cases h : s.ctl.station <;> simp [releaseTotal, h]

/-- RELEASE stands in the set and is wanted. -/
def Releases (s : State) : Prop :=
  s.ctl.transmit.release = true ∧ if s.ctl.station = .leaving then 0 < s.holding else s.need < s.holding

/-- RENEW stands in the set, or gave way to a RELEASE that is no longer wanted; and there is something to renew, or an empty one is
sent (log entry 38). -/
def Renews (s : State) : Prop :=
  (s.ctl.transmit.renew = true ∨ (s.ctl.transmit.release = true ∧ ¬ s.Releases ∧
    ∃ n, s.ctl.renewal = some n ∧ s.ctl.leaseTicks / 2 ≤ n)) ∧
  (0 < s.ctl.own.held ∨ s.ctl.own.waiting ≠ none ∨ (s.ctl.transmit.renew = true ∧ Config.emptyRenewIsSent = true))

/-- WITHDRAW stands in the set and is wanted. -/
def Withdraws (s : State) : Prop :=
  s.ctl.transmit.withdraw = true ∧ s.ctl.own.waiting ≠ none ∧ (s.ctl.station = .leaving ∨ s.claimNeeded = false)

/-- CLAIM stands in the set and is needed. -/
def Claims (s : State) : Prop := s.ctl.transmit.claim = true ∧ s.claimNeeded = true

theorem pruned_release_iff : s.pruned.release = true ↔ s.Releases := by
  simp only [pruned, Bool.and_eq_true, releaseWanted_iff, Releases]

theorem pruned_renew_iff : s.pruned.renew = true ↔ s.Renews := by
  have unwanted (h : s.ctl.transmit.release = true) : s.releaseWanted = false ↔ ¬ s.Releases := by
    rw [Releases, ← releaseWanted_iff, Bool.eq_false_iff]
    simp [h]
  simp only [pruned, Bool.and_eq_true, Bool.or_eq_true, Bool.not_eq_true', Controller.renewalReached_iff, Entry.active,
    decide_eq_true_eq, Option.isSome_iff_ne_none, Renews, or_assoc, and_assoc]
  refine and_congr_left' (or_congr_right (and_congr_right fun h => ?_))
  rw [unwanted h]

theorem pruned_withdraw_iff : s.pruned.withdraw = true ↔ s.Withdraws := by
  simp only [pruned, withdrawWanted, Bool.and_eq_true, Bool.or_eq_true, Bool.not_eq_true', decide_eq_true_eq,
    Option.isSome_iff_ne_none, Withdraws]

theorem pruned_claim_iff : s.pruned.claim = true ↔ s.Claims := by
  simp only [pruned, Bool.and_eq_true, Claims]

/-! ### The frame chosen (R138) -/

/-- A frame that is offered where its flag is set. -/
def offered (flag : Bool) (p : Payload) : Option Payload := if flag then some p else none

theorem find?_offer (flag : Bool) (p : Payload) (may : Payload → Bool) :
    (if flag = true then [p] else []).find? may = offered (flag && may p) p := by
  cases flag <;> cases h : may p <;> simp [offered, h]

/-- The choice goes through the frames in their order. -/
theorem chosen_eq (s : State) : s.chosen =
    (offered (s.pruned.release && s.ctl.station.maySend (.release (BitVec.ofNat 8 s.releaseTotal)))
        (.release (BitVec.ofNat 8 s.releaseTotal))).or
      ((offered (s.pruned.renew && s.ctl.station.maySend s.ctl.own.renewPayload) s.ctl.own.renewPayload).or
        (((s.pruned.evictTargets.map s.pruned.evictPayload).find? s.ctl.station.maySend).or
          ((offered (s.pruned.withdraw && s.ctl.station.maySend .withdraw) .withdraw).or
            ((offered (s.pruned.claim && s.ctl.station.maySend (.claim (BitVec.ofNat 8 s.claimTotal) (BitVec.ofNat 4 s.ctl.own.level)))
                (.claim (BitVec.ofNat 8 s.claimTotal) (BitVec.ofNat 4 s.ctl.own.level))).or
              (offered (s.pruned.hello && s.ctl.station.maySend (.hello s.ctl.nonce)) (.hello s.ctl.nonce)))))) := by
  simp only [chosen, offers, List.find?_append, find?_offer]

theorem find?_map_evictPayload (x : TransmitSet) (st : StationState) (ks : List StationId) :
    (ks.map x.evictPayload).find? st.maySend = if st = .inService then ks.head?.map x.evictPayload else none := by
  split
  case isTrue h =>
    subst h
    cases ks with
    | nil => rfl
    | cons k ks => exact List.find?_cons_of_pos rfl
  case isFalse h =>
    refine List.find?_eq_none.2 fun p hp => ?_
    obtain ⟨k, -, rfl⟩ := List.mem_map.1 hp
    unfold TransmitSet.evictPayload
    generalize (x.evict.entry k).getD 0#4 = g
    cases st with
    | inService => exact absurd rfl h
    | _ => exact Bool.false_ne_true

theorem maySend_release (st : StationState) (v : BitVec 8) :
    st.maySend (.release v) = (decide (st = .inService) || decide (st = .leaving)) := by
  cases st <;> rfl

theorem maySend_renew (st : StationState) (h q : BitVec 8) (w : BitVec 4) :
    st.maySend (.renew h q w) = (decide (st = .inService) || decide (st = .leaving)) := by
  cases st <;> rfl

theorem maySend_withdraw (st : StationState) :
    st.maySend .withdraw = (decide (st = .inService) || decide (st = .leaving)) := by
  cases st <;> rfl

theorem maySend_claim (st : StationState) (q : BitVec 8) (w : BitVec 4) :
    st.maySend (.claim q w) = decide (st = .inService) := by
  cases st <;> rfl

theorem maySend_hello (st : StationState) (n : BitVec 16) : st.maySend (.hello n) = decide (st = .learning) := by
  cases st <;> rfl

/-- The first of the frames that an IN_SERVICE or LEAVING station still wants. -/
theorem chosen_serving (h : s.ctl.station = .inService ∨ s.ctl.station = .leaving) : s.chosen =
    (offered s.pruned.release (.release (BitVec.ofNat 8 s.releaseTotal))).or
      ((offered s.pruned.renew s.ctl.own.renewPayload).or
        ((if s.ctl.station = .inService then s.pruned.evictTargets.head?.map s.pruned.evictPayload else none).or
          ((offered s.pruned.withdraw .withdraw).or
            (offered (s.pruned.claim && decide (s.ctl.station = .inService))
              (.claim (BitVec.ofNat 8 s.claimTotal) (BitVec.ofNat 4 s.ctl.own.level)))))) := by
  have serves : (decide (s.ctl.station = .inService) || decide (s.ctl.station = .leaving)) = true := by
    rcases h with h | h <;> rw [h] <;> rfl
  have learns : decide (s.ctl.station = .learning) = false := by rcases h with h | h <;> rw [h] <;> rfl
  rw [chosen_eq, find?_map_evictPayload, Entry.renewPayload, maySend_release, maySend_renew, maySend_withdraw, maySend_claim,
    maySend_hello, serves, learns, Bool.and_true, Bool.and_true, Bool.and_true, Bool.and_false]
  exact congrArg _ (congrArg _ (congrArg _ (congrArg _ (Option.or_none))))

/-- A LEARNING station sends HELLO alone. -/
theorem chosen_learning (h : s.ctl.station = .learning) : s.chosen = offered s.pruned.hello (.hello s.ctl.nonce) := by
  rw [chosen_eq, find?_map_evictPayload, Entry.renewPayload, maySend_release, maySend_renew, maySend_withdraw, maySend_claim,
    maySend_hello, h]
  rw [show decide (StationState.learning = .inService) = false from rfl, show decide (StationState.learning = .leaving) = false from rfl,
    show decide (StationState.learning = .learning) = true from rfl, if_neg nofun, Bool.or_false, Bool.and_false, Bool.and_false,
    Bool.and_false, Bool.and_false, Bool.and_true]
  rfl

/-- The lowest target of a pending EVICT. -/
theorem head?_evictTargets {x : TransmitSet} {k : StationId} {g : BitVec 4} (pending : x.evict.entry k = some g)
    (lowest : ∀ j, j.toNat < k.toNat → x.evict.entry j = none) : x.evictTargets.head?.map x.evictPayload = some (.evict k g) := by
  have first : x.evictTargets.head? = some k := by
    rw [TransmitSet.evictTargets, List.head?_filter, stationIds, List.find?_map, Option.map_eq_some_iff]
    refine ⟨k.toNat, List.find?_range_eq_some.2 ⟨?_, List.mem_range.2 k.isLt, fun j hj => ?_⟩, by simp⟩
    · simp [pending]
    · have small : j < 16 := hj.trans k.isLt
      simp [lowest (BitVec.ofNat 4 j) (by simpa [Nat.mod_eq_of_lt small] using hj)]
  rw [first]
  simp [TransmitSet.evictPayload, pending]

/-! ### What the row leaves (R126, R138, log entries 19 and 30) -/

/-- An attempt may start: the bus is idle for the port, which is not stuck and has no attempt open. -/
def MayStart (s : State) : Prop :=
  s.heldInReset = false ∧ s.port.framing = .outOfFrame ∧ 6 ≤ s.port.recessiveCount ∧ s.port.stuck = false ∧
    s.port.sending = none

theorem exec_attemptStart_of_not (h : ¬ s.MayStart ∨ s.ctl.station.onBus = false) : exec .attemptStart s = .next s := by
  show execAttemptStart s = .next s
  cases live : s.heldInReset with
  | true => rw [execAttemptStart, live, if_pos rfl]
  | false =>
    rw [execAttemptStart, live, if_neg Bool.false_ne_true, startAttempt, if_neg]
    simp only [MayStart, live, Port.idle, Bool.and_eq_true, decide_eq_true_eq, Bool.not_eq_true', Option.isNone_iff_eq_none] at h ⊢
    rintro ⟨⟨⟨on, out, idle⟩, unstuck⟩, silent⟩
    rcases h with h | off
    · exact h ⟨trivial, out, idle, unstuck, silent⟩
    · exact absurd (on.symm.trans off) nofun

/-- The state with what is no longer wanted removed, and a port. -/
def prunedTo (s : State) (p : Port) : State := { s with ctl := { s.ctl with transmit := s.pruned }, port := p }

theorem exec_attemptStart_of_mayStart (h : s.MayStart) (on : s.ctl.station.onBus = true) : exec .attemptStart s =
    .next (s.prunedTo (match s.chosen with
      | none => s.port
      | some p => { s.port with
          framing := .inFrame [], recessiveCount := 0, sending := some ⟨p, frameLine s.ctl.id s.ctl.digest p⟩ })) := by
  obtain ⟨live, out, idle, unstuck, silent⟩ := h
  show execAttemptStart s = _
  rw [execAttemptStart, live, if_neg Bool.false_ne_true, startAttempt,
    if_pos (by simp [on, Port.idle, out, idleBits, idle, unstuck, silent])]
  cases s.chosen <;> rfl

/-- A state that differs in the port and in what the transmit set still wants alone. -/
def IsPruned (s t : State) (p : Port) : Prop :=
  t = { s with ctl := { s.ctl with transmit := t.ctl.transmit }, port := p } ∧
    t.ctl.transmit.hello = s.ctl.transmit.hello ∧ t.ctl.transmit.evict = s.ctl.transmit.evict ∧
    (t.ctl.transmit.release = true ↔ s.Releases) ∧ (t.ctl.transmit.renew = true ↔ s.Renews) ∧
    (t.ctl.transmit.withdraw = true ↔ s.Withdraws) ∧ (t.ctl.transmit.claim = true ↔ s.Claims)

theorem isPruned_prunedTo (s : State) (p : Port) : s.IsPruned (s.prunedTo p) p :=
  ⟨rfl, rfl, rfl, pruned_release_iff, pruned_renew_iff, pruned_withdraw_iff, pruned_claim_iff⟩

/-- An attempt starts with a payload. -/
def Starts (s : State) (p : Payload) : Prop :=
  ∃ t, exec .attemptStart s = .next t ∧ s.IsPruned t { s.port with
    framing := .inFrame [], recessiveCount := 0, sending := some ⟨p, frameLine s.ctl.id s.ctl.digest p⟩ }

theorem starts_of_chosen {p : Payload} (h : s.MayStart) (on : s.ctl.station.onBus = true) (chosen : s.chosen = some p) :
    s.Starts p :=
  ⟨_, by rw [exec_attemptStart_of_mayStart h on, chosen], isPruned_prunedTo ..⟩

theorem startsNone_of_chosen (h : s.MayStart) (on : s.ctl.station.onBus = true) (chosen : s.chosen = none) :
    ∃ t, exec .attemptStart s = .next t ∧ s.IsPruned t s.port :=
  ⟨_, by rw [exec_attemptStart_of_mayStart h on, chosen], isPruned_prunedTo ..⟩

/-! ### The frame chosen, by what is wanted -/

theorem chosen_of_releases (on : s.ctl.station = .inService ∨ s.ctl.station = .leaving) (h : s.Releases) :
    s.chosen = some (.release (BitVec.ofNat 8 (if s.ctl.station = .leaving then 0 else s.need))) := by
  rw [chosen_serving on, pruned_release_iff.2 h, releaseTotal_eq]
  rfl

theorem chosen_of_renews (on : s.ctl.station = .inService ∨ s.ctl.station = .leaving) (noRelease : ¬ s.Releases)
    (h : s.Renews) : s.chosen = some s.ctl.own.renewPayload := by
  rw [chosen_serving on, Bool.eq_false_iff.2 (mt pruned_release_iff.1 noRelease), pruned_renew_iff.2 h]
  rfl

theorem chosen_of_evict {k : StationId} {g : BitVec 4} (serves : s.ctl.station = .inService) (noRelease : ¬ s.Releases)
    (noRenew : ¬ s.Renews) (pending : s.ctl.transmit.evict.entry k = some g)
    (lowest : ∀ j, j.toNat < k.toNat → s.ctl.transmit.evict.entry j = none) : s.chosen = some (.evict k g) := by
  rw [chosen_serving (.inl serves), Bool.eq_false_iff.2 (mt pruned_release_iff.1 noRelease),
    Bool.eq_false_iff.2 (mt pruned_renew_iff.1 noRenew), if_pos serves,
    head?_evictTargets (x := s.pruned) pending lowest]
  rfl

/-- With no RELEASE, RENEW or EVICT the choice is between WITHDRAW and CLAIM. -/
theorem chosen_of_no_evict (on : s.ctl.station = .inService ∨ s.ctl.station = .leaving) (noRelease : ¬ s.Releases)
    (noRenew : ¬ s.Renews) (noEvict : s.ctl.station = .leaving ∨ ∀ k, s.ctl.transmit.evict.entry k = none) :
    s.chosen = (offered s.pruned.withdraw .withdraw).or (offered (s.pruned.claim && decide (s.ctl.station = .inService))
      (.claim (BitVec.ofNat 8 s.claimTotal) (BitVec.ofNat 4 s.ctl.own.level))) := by
  have evicts : (if s.ctl.station = .inService then s.pruned.evictTargets.head?.map s.pruned.evictPayload else none) = none := by
    rcases noEvict with leaving | none
    · rw [if_neg (by rw [leaving]; nofun)]
    · have noTarget : s.pruned.evictTargets = [] := List.filter_eq_nil_iff.2 fun k _ => by
        rw [show s.pruned.evict.entry k = Option.none from none k]
        exact Bool.false_ne_true
      rw [noTarget]
      exact ite_self _
  rw [chosen_serving on, Bool.eq_false_iff.2 (mt pruned_release_iff.1 noRelease),
    Bool.eq_false_iff.2 (mt pruned_renew_iff.1 noRenew), evicts]
  rfl

end State

open State

/-- Settles O48: what is pruned is what the set wants no more, and the frame chosen is the first one that is left and allowed. -/
theorem attemptStartsWithTheFirstWantedFrame : Obligations.AttemptStartsWithTheFirstWantedFrame := by
  intro s
  refine ⟨exec_attemptStart_of_not, fun ready serves => ?_, fun ready learns => ?_⟩
  · have on : s.ctl.station.onBus = true := by rcases serves with h | h <;> rw [h] <;> rfl
    have inService (h : s.ctl.station ≠ .leaving) : s.ctl.station = .inService := serves.resolve_right h
    refine ⟨fun release => starts_of_chosen ready on (chosen_of_releases serves release),
      fun noRelease renew => starts_of_chosen ready on (chosen_of_renews serves noRelease renew),
      fun noRelease noRenew stays k g pending lowest =>
        starts_of_chosen ready on (chosen_of_evict (inService stays) noRelease noRenew pending lowest),
      fun noRelease noRenew noEvict => ?_⟩
    have chosen := chosen_of_no_evict serves noRelease noRenew noEvict
    refine ⟨fun withdraw => starts_of_chosen ready on ?_, fun noWithdraw stays claim => starts_of_chosen ready on ?_,
      fun noWithdraw noClaim => startsNone_of_chosen ready on ?_⟩
    · rw [chosen, pruned_withdraw_iff.2 withdraw]
      rfl
    · rw [chosen, Bool.eq_false_iff.2 (mt pruned_withdraw_iff.1 noWithdraw), pruned_claim_iff.2 claim, inService stays]
      rfl
    · have silent : (s.pruned.claim && decide (s.ctl.station = .inService)) = false := by
        rcases noClaim with leaving | noClaim
        · rw [leaving]
          exact Bool.and_false _
        · rw [Bool.eq_false_iff.2 (mt pruned_claim_iff.1 noClaim), Bool.false_and]
      rw [chosen, Bool.eq_false_iff.2 (mt pruned_withdraw_iff.1 noWithdraw), silent]
      rfl
  · have on : s.ctl.station.onBus = true := by rw [learns]; rfl
    have chosen := chosen_learning learns
    refine ⟨fun hello => starts_of_chosen ready on ?_, fun hello => startsNone_of_chosen ready on ?_⟩
    · rw [chosen, show s.pruned.hello = true from hello]
      rfl
    · rw [chosen, show s.pruned.hello = false from hello]
      rfl

end Sys2Proof.Machine

/-! # CONFIGURE

The checks in their order, what settling makes of restarted accumulators, and the two MAP_LOADs that a SOLO station begins at once
(R98, R100, R129, R145). -/

namespace Sys2Proof.Machine

/-! ### Accumulators that have restarted (R98) -/

/-- A slot that waits has waited for no time yet. -/
def Slot.Restarted (sl : Slot) : Prop := (sl.state = .waiting ∨ sl.state = .held) → sl.waitTime = 0

/-- Every slot of a bank that waits has waited for no time yet. -/
def Bank.Restarted (bk : Bank) : Prop := ∀ sl ∈ bk.queue, sl.Restarted

theorem Slot.restarted_restartWait (sl : Slot) : sl.restartWait.Restarted := by
  unfold Slot.restartWait
  split
  · exact fun _ => rfl
  · exact fun waits => absurd waits ‹_›

theorem Slot.restarted_of_running {sl : Slot} (h : sl.state = .running) : sl.Restarted := by
  rintro (waits | waits) <;> exact absurd (h.symm.trans waits) nofun

theorem Slot.Restarted.noteWaiting {sl : Slot} (h : sl.Restarted) : sl.noteWaiting.Restarted := by
  unfold Slot.noteWaiting
  split
  · exact h
  · exact h

namespace Bank.Restarted

variable {bk u : Bank} {sl : Slot}

theorem removed (h : bk.Restarted) {tag : Byte} (queue : u.queue = removeTag tag bk.queue) : u.Restarted := by
  intro x hx
  rw [queue] at hx
  exact h x (mem_removeTag.1 hx).1

theorem updated (h : bk.Restarted) {tag : Byte} {f : Slot → Slot} (hf : ∀ x, (f x).Restarted)
    (queue : u.queue = updateTag tag f bk.queue) : u.Restarted := by
  intro x hx
  rw [queue, updateTag] at hx
  obtain ⟨y, hy, rfl⟩ := List.mem_map.1 hx
  split
  · exact hf y
  · exact h y hy

theorem mapped {f : Slot → Slot} (hf : ∀ x ∈ bk.queue, (f x).Restarted) (queue : u.queue = bk.queue.map f) : u.Restarted := by
  intro x hx
  rw [queue] at hx
  obtain ⟨y, hy, rfl⟩ := List.mem_map.1 hx
  exact hf y hy

theorem startPoint (h : bk.Restarted) (sl : Slot) : (bk.startPoint sl).bank.Restarted := by
  unfold Bank.startPoint
  split
  · exact h.removed rfl
  · exact h.updated (fun _ _ => rfl) rfl

theorem advanceStep (h : bk.Restarted) {v : Turn} (hv : bk.advanceStep = some v) : v.bank.Restarted := by
  obtain ⟨-, sl, behind, -, hc⟩ := Bank.advanceStep_cases hv
  rcases hc with ⟨-, rfl⟩ | ⟨-, served⟩ | ⟨-, completed⟩ | ⟨-, r, -, served⟩ | ⟨-, -, -, r, -, rfl⟩
  · exact h.startPoint sl
  · exact h.removed (Bank.servePending_queue served).2.2
  · exact h.removed (Bank.completeWaiting_queue completed).2
  · exact h.removed (Bank.servePending_queue served).2.2
  · exact h.startPoint r

theorem advance (n : Nat) {v : Turn} (h : v.bank.Restarted) : (Bank.advance n v).bank.Restarted := by
  induction n generalizing v with
  | zero => exact h
  | succ n ih =>
    unfold Bank.advance
    split
    · exact h
    · rename_i t step
      have next : t.bank.Restarted := h.advanceStep step
      exact ih (v := ⟨t.bank, _⟩) next

theorem runs (h : bk.Restarted) {tag : Byte} (runs : bk.Runs u tag) : u.Restarted := by
  obtain ⟨-, f, hf, queue⟩ := runs
  exact h.updated (fun x => Slot.restarted_of_running (hf x)) queue

theorem proceed (h : bk.Restarted) : bk.proceed.Restarted := by
  rcases bk.proceed_cases with same | ⟨i, -, begins⟩ | ⟨-, sl, behind, -, -, runs⟩ | ⟨-, sl, behind, -, -, r, -, runs⟩
  · rwa [same]
  · have queue : (bk.beginInternal i.op).queue = bk.queue := by cases i.op <;> rfl
    rw [begins, Restarted, queue]
    exact h
  · exact h.runs runs
  · exact h.runs runs

theorem noteWaiting (h : bk.Restarted) : bk.noteWaiting.Restarted := by
  rcases Bank.Settles.noteWaiting_cases bk with same | noted | ⟨-, sl, behind, queue, -, -, resumes⟩
  · rwa [same]
  · rw [noted]
    exact mapped (fun x hx => (h x hx).noteWaiting) rfl
  · rw [resumes]
    intro x hx
    rcases List.mem_cons.1 hx with rfl | hx
    · exact fun _ => rfl
    · exact h x (queue ▸ List.mem_cons_of_mem _ hx)

end Bank.Restarted

theorem Bank.restarted_restartWaits (bk : Bank) : bk.restartWaits.Restarted :=
  Bank.Restarted.mapped (bk := bk) (fun x _ => x.restarted_restartWait) rfl

theorem Bank.isRunning_restartWaits (bk : Bank) : bk.restartWaits.isRunning = bk.isRunning := by
  refine Bank.isRunning_map (f := Slot.restartWait) (fun x => ?_) rfl rfl
  unfold Slot.restartWait
  split <;> rfl

namespace State

/-- In both banks every slot that waits has waited for no time yet. -/
def Restarted (s : State) : Prop := ∀ b, (s.bank b).Restarted

namespace Restarted

variable {s : State}

theorem of_same {t : State} (h : s.Restarted) (h0 : t.bank0 = s.bank0) (h1 : t.bank1 = s.bank1) : t.Restarted := by
  intro b
  have same : t.bank b = s.bank b := by cases b <;> assumption
  exact same ▸ h b

theorem setBank (h : s.Restarted) {b : BankId} {bk : Bank} (hb : bk.Restarted) : (s.setBank b bk).Restarted := by
  intro b'
  cases b <;> cases b'
  exacts [hb, h .one, h .zero, hb]

theorem advanceBank (h : s.Restarted) (b : BankId) : (s.advanceBank b).Restarted :=
  (h.setBank (b := b) (Bank.Restarted.advance _ (v := Turn.of (s.bank b)) (h b))).of_same rfl rfl

theorem tryBank (h : s.Restarted) (b : BankId) : (s.tryBank b).Restarted := by
  rcases s.tryBank_cases b with same | ⟨-, -, same⟩ <;> rw [same]
  · exact h
  · exact h.setBank (h b).proceed

theorem admitAll (h : s.Restarted) : s.admitAll.Restarted :=
  ((((h.tryBank .zero).tryBank .one).of_same (soloClaim_bank0 _) (soloClaim_bank1 _)).tryBank .zero).tryBank .one

theorem noteWaiting (h : s.Restarted) : s.noteWaiting.Restarted := fun b => by
  cases b
  · exact (h .zero).noteWaiting
  · exact (h .one).noteWaiting

theorem orderPause (h : s.Restarted) (b : BankId) : (s.orderPause b).Restarted := by
  unfold State.orderPause
  split
  · exact h.setBank (h b)
  · exact h

/-- What settling lets wait has waited for no time. -/
theorem settle (h : s.Restarted) : s.settle.Restarted :=
  ((((h.advanceBank .zero).advanceBank .one).admitAll.noteWaiting.orderPause .zero).orderPause .one).of_same
    (tendTransmit_bank0 _) (tendTransmit_bank1 _)

end Restarted

end State

/-! ### A bank with a MAP_LOAD ahead (R86, R87, R160) -/

/-- The internal operation ahead of a bank is a MAP_LOAD, begun or not. -/
def Bank.Loads (bk : Bank) (begun : Bool) : Prop := ∃ scan, bk.internal = some ⟨.mapLoad scan, begun⟩

namespace Bank.Loads

variable {bk : Bank} {begun : Bool}

theorem internal (h : bk.Loads begun) : bk.internal ≠ none := by
  obtain ⟨scan, h⟩ := h
  rw [h]
  nofun

theorem reservation (h : bk.Loads begun) : bk.reservation = 2 := by
  obtain ⟨scan, h⟩ := h
  rw [Bank.reservation, h]
  rfl

theorem isRunning (h : bk.Loads begun) : bk.isRunning = begun := by
  obtain ⟨scan, h⟩ := h
  rw [Bank.isRunning, h]

theorem runningReservation (h : bk.Loads begun) : bk.runningReservation = if begun = true then 2 else 0 := by
  rw [Bank.runningReservation, h.isRunning, h.reservation]

theorem isWaiting (h : bk.Loads false) : bk.isWaiting = true := by
  rw [Bank.isWaiting, h.isRunning, h.reservation]
  rfl

theorem proceed (h : bk.Loads false) : bk.proceed.Loads true ∧ bk.proceed.step = some (.sense .mapScan) := by
  obtain ⟨scan, h⟩ := h
  rw [Bank.proceed, h]
  exact ⟨⟨scan, rfl⟩, rfl⟩

theorem noteWaiting (h : bk.Loads begun) : bk.noteWaiting = bk :=
  if_pos (Option.isSome_iff_ne_none.2 h.internal)

theorem hostRunning (h : bk.Loads begun) : bk.hostRunning = false := by
  obtain ⟨scan, h⟩ := h
  rw [Bank.hostRunning, h]
  rfl

end Bank.Loads

/-! ### The MAP_LOADs of a fresh die in SOLO (R88, R89, R100, R145) -/

namespace State

variable {s x : State} {b : BankId}

/-- A SOLO station with no attempt open admits up to its holding. -/
theorem gateAdmits_solo (solo : s.ctl.station = .solo) (silent : s.port.sending = none) : s.gateAdmits b =
    decide ((s.bank (otherBank b)).runningReservation + (s.bank b).reservation ≤ s.holding) := by
  have draws : s.ctl.mayDraw = true := by simp [Controller.mayDraw, solo]
  rw [gateAdmits, draws, Bool.true_and, admissible, silent]

theorem tryBank_of_shut (shut : s.gateAdmits b = false) : s.tryBank b = s :=
  if_neg (by simp [shut])

theorem tryBank_of_open (waits : (s.bank b).isWaiting = true) (admits : s.gateAdmits b = true) :
    s.tryBank b = s.setBank b (s.bank b).proceed :=
  if_pos (by simp [waits, admits])

theorem advanceBanks_of_internal (internal : ∀ b, (s.bank b).internal ≠ none) : s.advanceBanks = s := by
  have rests (b : BankId) : s.advanceBank b = s := advanceBank_of_rest (Bank.advanceStep_internal (internal b))
  rw [advanceBanks, rests, rests]

/-- A SOLO station that holds nothing, with a MAP_LOAD ahead of both banks and a budget for both. -/
structure AwaitsLoads (x : State) : Prop where
  solo : x.ctl.station = .solo
  silent : x.port.sending = none
  holds : x.holding = 0
  budget : 4 ≤ x.ctl.budget
  loads : ∀ b, (x.bank b).Loads false

/-- A SOLO station that holds 4 CU, with both MAP_LOADs begun. -/
structure LoadsBegun (x : State) : Prop where
  holds : x.holding = 4
  loads : ∀ b, (x.bank b).Loads true ∧ (x.bank b).step = some (.sense .mapScan)

namespace AwaitsLoads

theorem shut (h : x.AwaitsLoads) (b : BankId) : x.gateAdmits b = false := by
  rw [gateAdmits_solo h.solo h.silent, (h.loads _).reservation, h.holds]
  simp

theorem tryBanks (h : x.AwaitsLoads) : x.tryBanks = x := by
  rw [State.tryBanks, tryBank_of_shut (h.shut _), tryBank_of_shut (h.shut _)]

theorem claimTotal (h : x.AwaitsLoads) : x.claimTotal = 4 := by
  have running (b : BankId) := (h.loads b).runningReservation
  have waits (b : BankId) := (h.loads b).isWaiting
  have reservation (b : BankId) := (h.loads b).reservation
  have budget := h.budget
  have run0 : x.bank0.runningReservation = 0 := running .zero
  have run1 : x.bank1.runningReservation = 0 := running .one
  have first : addWaiting x.ctl.budget 0 x.bank0 = 2 := by
    rw [addWaiting, show x.bank0.reservation = 2 from reservation .zero, if_pos ⟨waits .zero, by omega⟩]
  have second : addWaiting x.ctl.budget 2 x.bank1 = 4 := by
    rw [addWaiting, show x.bank1.reservation = 2 from reservation .one, if_pos ⟨waits .one, by omega⟩]
  rw [State.claimTotal, run0, run1, first, second]

/-- The claim for both is granted at once. -/
theorem soloClaim (h : x.AwaitsLoads) : x.soloClaim =
    { x with ctl := x.ctl.setOwn { x.ctl.own.advanced with held := 4, waiting := none } } := by
  have needed : x.claimNeeded = true := by
    rw [claimNeeded, h.claimTotal, h.holds, show x.bank0.isWaiting = true from (h.loads .zero).isWaiting]
    rfl
  rw [State.soloClaim, h.claimTotal, if_pos ⟨h.solo, needed, h.budget⟩]

end AwaitsLoads

/-- With 4 CU both MAP_LOADs begin, the second beside the first. -/
theorem tryBanks_begins (solo : x.ctl.station = .solo) (silent : x.port.sending = none) (holds : x.holding = 4)
    (loads : ∀ b, (x.bank b).Loads false) : x.tryBanks.LoadsBegun := by
  have begins0 := (loads .zero).proceed
  have begins1 := (loads .one).proceed
  have open0 : x.gateAdmits .zero = true := by
    rw [gateAdmits_solo solo silent, (loads _).runningReservation, (loads _).reservation, holds]
    rfl
  have first := tryBank_of_open (loads .zero).isWaiting open0
  have open1 : (x.tryBank .zero).gateAdmits .one = true := by
    rw [gateAdmits_solo (by simpa using solo) (by simpa using silent), first]
    show decide ((x.bank .zero).proceed.runningReservation + (x.bank .one).reservation ≤ x.holding) = true
    rw [begins0.1.runningReservation, (loads .one).reservation, holds]
    rfl
  have second : (x.tryBank .zero).tryBank .one = (x.tryBank .zero).setBank .one x.bank1.proceed := by
    have same : (x.tryBank .zero).bank .one = x.bank1 := by rw [first]; rfl
    rw [tryBank_of_open (same ▸ (loads .one).isWaiting) open1, same]
  rw [tryBanks, second, first]
  refine ⟨holds, fun b => ?_⟩
  cases b
  · exact begins0
  · exact begins1

theorem orderPause_of_loads {begun : Bool} (loads : (x.bank b).Loads begun) : x.orderPause b = x :=
  if_neg (by simp [loads.hostRunning])

/-- MAP_LOADs that run are left as they are by what follows the gate. -/
theorem LoadsBegun.rest (h : x.LoadsBegun) : x.noteWaiting.orderPauses.tendTransmit.LoadsBegun := by
  have noted : x.noteWaiting = x := by
    rw [State.noteWaiting, show x.bank0.noteWaiting = x.bank0 from (h.loads .zero).1.noteWaiting,
      show x.bank1.noteWaiting = x.bank1 from (h.loads .one).1.noteWaiting]
  have ordered : x.orderPauses = x := by
    rw [orderPauses, orderPause_of_loads (h.loads .zero).1, orderPause_of_loads (h.loads .one).1]
  rw [noted, ordered]
  refine ⟨?_, fun b => by rw [tendTransmit_bank]; exact h.loads b⟩
  rw [holding, Controller.own, tendTransmit_ctl_table, tendTransmit_ctl_id]
  exact h.holds

theorem AwaitsLoads.settle (h : x.AwaitsLoads) : x.settle.LoadsBegun := by
  have begun : x.advanceBanks.admitAll.LoadsBegun := by
    rw [advanceBanks_of_internal fun b => (h.loads b).internal, admitAll, h.tryBanks, h.soloClaim]
    exact tryBanks_begins h.solo h.silent (congrArg Entry.held (Controller.setOwn_own _ _)) h.loads
  exact begun.rest

/-! ### The effect of CONFIGURE -/

/-- The change of an accepted CONFIGURE before it settles. -/
def reconfigured (s : State) (g : Settings) : State :=
  { s with ctl := s.ctl.configured g, bank0 := s.bank0.restartWaits, bank1 := s.bank1.restartWaits }

theorem configure_eq (s : State) (g : Settings) : s.configure g = (s.reconfigured g).settle.answer .accepted := rfl

theorem reconfigured_bank (s : State) (g : Settings) (b : BankId) : (s.reconfigured g).bank b = (s.bank b).restartWaits := by
  cases b <;> rfl

theorem reconfigured_restarted (s : State) (g : Settings) : (s.reconfigured g).Restarted := fun b => by
  rw [reconfigured_bank]
  exact Bank.restarted_restartWaits _

/-- A bank that CONFIGURE meets running, or leaves at rest, keeps its cells. -/
theorem configure_array (s : State) (g : Settings) (b : BankId)
    (h : (s.bank b).isRunning = true ∨ ((s.configure g).bank b).isRunning = false) :
    ((s.configure g).bank b).array = (s.bank b).array := by
  have settles := BanksSettle.settle (s.reconfigured g) b
  rw [configure_eq, answer_bank] at h ⊢
  rw [reconfigured_bank] at settles
  rcases h with run | rest
  · obtain ⟨q, order, after, -⟩ := settles.alone ((Bank.isRunning_restartWaits _).trans run)
    rw [after]
    rfl
  · exact settles.array rest

end State

/-! ### The controller as CONFIGURE leaves it (R145) -/

namespace Controller

variable (c : Controller) (g : Settings)

theorem configured_keeps : (c.configured g).settings = some g ∧ (c.configured g).digest = digestOf g.budget g.lease ∧
    (c.configured g).id = c.id ∧ (c.configured g).nonce = c.nonce ∧ (c.configured g).renewal = c.renewal ∧
    (c.configured g).lapsed = c.lapsed ∧ (c.configured g).window = c.window ∧ (c.configured g).diverged = c.diverged := by
  unfold Controller.configured
  cases g.busUse <;> exact ⟨rfl, rfl, rfl, rfl, rfl, rfl, rfl, rfl⟩

variable {c g}

theorem configured_shared (h : g.busUse = .shared) :
    c.configured g = { c with settings := some g, digest := digestOf g.budget g.lease, station := .configured } := by
  unfold Controller.configured
  rw [h]

theorem configured_solo (h : g.busUse = .solo) : c.configured g =
    { c.setOwn c.own.soloStart with settings := some g, digest := digestOf g.budget g.lease, station := .solo } := by
  unfold Controller.configured
  rw [h]
  rfl

end Controller

/-! ### The checks of CONFIGURE (R145) -/

section Checks

variable {s : State} {u b l w : Byte}

theorem exec_configure (ready : s.ready = true) : exec (.configure [u, b, l, w]) s = .next
    (if s.ctl.station ≠ .unconfigured then s.answer .wrongState
      else match (⟨u, b, l, w⟩ : ConfigureParams).settings with
        | none => s.answer .badValue
        | some g => s.configure g) := by
  show execConfigure [u, b, l, w] s = _
  rw [execConfigure, State.transaction_ready ready]
  rfl

/-- The settings that fitting parameters give. -/
def settingsOf (u b l w : Byte) : Settings := ⟨if u = 0#8 then .shared else .solo, b.toNat, l.toNat, w.toNat⟩

theorem configureParams_settings : (⟨u, b, l, w⟩ : ConfigureParams).settings =
    if u.toNat ≤ 1 ∧ 6 ≤ b.toNat ∧ b.toNat ≤ 240 ∧ 1 ≤ l.toNat ∧ l.toNat ≤ 16 then some (settingsOf u b l w) else none := by
  unfold ConfigureParams.settings settingsOf busUseOf
  by_cases shared : u = 0#8
  · simp [shared]
  · by_cases solo : u = 1#8
    · simp [solo]
    · have large : ¬ u.toNat ≤ 1 := by bv_omega
      simp [shared, solo, large]

theorem digestOf_toNat (budget lease : Nat) : (digestOf budget lease).toNat = (budget + 37 * lease) % 256 :=
  BitVec.toNat_ofNat ..

end Checks

namespace State

variable {s : State} {g : Settings}

/-! ### What CONFIGURE leaves and sets (R145) -/

theorem reconfigured_ctl (s : State) (g : Settings) : (s.reconfigured g).ctl = s.ctl.configured g := rfl

theorem configure_ctl (s : State) (g : Settings) : (s.configure g).ctl = (s.reconfigured g).settle.ctl := by
  rw [configure_eq, answer_ctl]

theorem configure_station (s : State) (g : Settings) : (s.configure g).ctl.station = (s.ctl.configured g).station := by
  rw [configure_ctl, settle_ctl_station, reconfigured_ctl]

theorem configure_keeps (s : State) (g : Settings) : (s.configure g).ctl.settings = some g ∧
    (s.configure g).ctl.digest = digestOf g.budget g.lease ∧ (s.configure g).ctl.id = s.ctl.id ∧
    (s.configure g).ctl.nonce = s.ctl.nonce ∧ (s.configure g).ctl.renewal = s.ctl.renewal ∧
    (s.configure g).ctl.lapsed = s.ctl.lapsed ∧ (s.configure g).ctl.window = s.ctl.window ∧
    (s.configure g).ctl.diverged = s.ctl.diverged := by
  simpa only [configure_ctl, settle_ctl_settings, settle_ctl_digest, settle_ctl_id, settle_ctl_nonce, settle_ctl_renewal,
    settle_ctl_lapsed, settle_ctl_window, settle_ctl_diverged, reconfigured_ctl] using s.ctl.configured_keeps g

theorem configure_frame (s : State) (g : Settings) : (s.configure g).port = s.port ∧
    (s.configure g).link = { s.link with response := [Response.accepted.code] } ∧ (s.configure g).inReset = s.inReset ∧
    (s.configure g).fresh = s.fresh ∧ (s.configure g).pending = s.pending := by
  have port : (s.reconfigured g).settle.port = s.port := settle_port _
  have link : (s.reconfigured g).settle.link = s.link := settle_link _
  have inReset : (s.reconfigured g).settle.inReset = s.inReset := settle_inReset _
  have fresh : (s.reconfigured g).settle.fresh = s.fresh := settle_fresh _
  have pending : (s.reconfigured g).settle.pending = s.pending := settle_pending _
  rw [configure_eq]
  generalize (s.reconfigured g).settle = t at *
  exact ⟨port, congrArg (fun l : Link => { l with response := [Response.accepted.code] }) link, inReset, fresh, pending⟩

theorem configure_completions (s : State) (g : Settings) :
    ∃ more, (s.configure g).completions = s.completions ++ more := by
  rw [configure_eq, answer_completions]
  exact settle_completions _

theorem configure_restarted (s : State) (g : Settings) : (s.configure g).Restarted := fun b => by
  rw [configure_eq, answer_bank]
  exact (s.reconfigured_restarted g).settle b

theorem reconfigured_shared (h : g.busUse = .shared) : (s.reconfigured g).ctl.station = .configured := by
  rw [reconfigured_ctl, Controller.configured_shared h]

/-- A SHARED station keeps its table and its transmit set. -/
theorem configure_shared (h : g.busUse = .shared) :
    (s.configure g).ctl.table = s.ctl.table ∧ (s.configure g).ctl.transmit = s.ctl.transmit := by
  have station := reconfigured_shared (s := s) h
  rw [configure_ctl, settle_ctl_table _ (by rw [station]; nofun),
    settle_transmit (by rw [station]; nofun) (by rw [station]; nofun) (by rw [station]; nofun),
    reconfigured_ctl, Controller.configured_shared h]
  exact ⟨rfl, rfl⟩

/-- The entry a SOLO station starts from. -/
theorem reconfigured_solo_own (h : g.busUse = .solo) : (s.reconfigured g).ctl.own = s.ctl.own.soloStart := by
  rw [reconfigured_ctl, Controller.configured_solo h]
  exact Controller.setOwn_own s.ctl s.ctl.own.soloStart

/-- A SOLO station is known to itself and waits for nothing, also once a claim is granted. -/
theorem configure_solo_own (h : g.busUse = .solo) :
    (s.configure g).ctl.own.known = true ∧ (s.configure g).ctl.own.waiting = none := by
  have start := reconfigured_solo_own (s := s) h
  rw [configure_ctl]
  rcases (s.reconfigured g).settle_own with same | ⟨-, n, -, granted⟩
  · rw [same, start]
    exact ⟨rfl, rfl⟩
  · rw [granted, start]
    exact ⟨rfl, rfl⟩

theorem configure_solo_entry (h : g.busUse = .solo) {k : StationId} (other : k ≠ s.ctl.id) :
    (s.configure g).ctl.table.entry k = s.ctl.table.entry k := by
  have id : (s.reconfigured g).ctl.id = s.ctl.id := (s.ctl.configured_keeps g).2.2.1
  rw [configure_ctl, settle_ctl_entry _ (id ▸ other), reconfigured_ctl, Controller.configured_solo h]
  exact PerStation.entry_put_other _ other _

/-- The MAP_LOADs of a fresh die hold their 4 CU and have begun. -/
theorem configure_solo_loads (h : g.busUse = .solo) (budget : 4 ≤ g.budget) (silent : s.port.sending = none)
    (loads : ∀ b, (s.bank b).Loads false) : (s.configure g).LoadsBegun := by
  have awaits : (s.reconfigured g).AwaitsLoads := {
    solo := by
      rw [reconfigured_ctl, Controller.configured_solo h]
    silent := silent
    holds := congrArg Entry.held (reconfigured_solo_own h)
    budget := by
      have settings : (s.reconfigured g).ctl.settings = some g := (s.ctl.configured_keeps g).1
      rw [Controller.budget, settings]
      exact budget
    loads := fun b => by
      rw [reconfigured_bank]
      exact loads b }
  obtain ⟨holds, begun⟩ := awaits.settle
  refine ⟨?_, fun b => ?_⟩
  · rwa [holding, configure_ctl]
  · rw [configure_eq, answer_bank]
    exact begun b

end State

/-- Settles O6: the effect of an accepted CONFIGURE is restarted accumulators and a new controller, and what settling makes of
them. -/
theorem configureSetsTheStation : Obligations.ConfigureSetsTheStation := by
  intro s u b l w ready
  refine ⟨fun taken => ?_, fun free unfit => ?_, fun free fit => ?_⟩
  · rw [exec_configure ready, if_pos taken]
    rfl
  · rw [exec_configure ready, if_neg (not_not.2 free), configureParams_settings, if_neg unfit]
    rfl
  · rw [exec_configure ready, if_neg (not_not.2 free), configureParams_settings, if_pos fit]
    have shared (h : u = 0#8) : (settingsOf u b l w).busUse = .shared := if_pos h
    have solo (h : u ≠ 0#8) : (settingsOf u b l w).busUse = .solo := if_neg h
    have budget : 4 ≤ (settingsOf u b l w).budget := le_trans (by decide) fit.2.1
    have digestAt : (digestOf (settingsOf u b l w).budget (settingsOf u b l w).lease).toNat =
        (b.toNat + 37 * l.toNat) % 256 := digestOf_toNat _ _
    have settingsAt : settingsOf u b l w = ⟨if u = 0#8 then .shared else .solo, b.toNat, l.toNat, w.toNat⟩ := rfl
    generalize settingsOf u b l w = g at *
    obtain ⟨settings, digest, id, nonce, renewal, lapsed, window, diverged⟩ := s.configure_keeps g
    obtain ⟨port, link, inReset, fresh, pending⟩ := s.configure_frame g
    refine ⟨s.configure g, rfl, settingsAt ▸ settings, digest ▸ digestAt, ?_, s.configure_restarted g,
      fun h => State.configure_shared (shared h),
      fun h => ⟨(State.configure_solo_own (solo h)).1, (State.configure_solo_own (solo h)).2,
        fun k => State.configure_solo_entry (solo h)⟩,
      fun h silent loads => ?_, s.configure_array g, s.configure_completions g, id, nonce, renewal, lapsed, window, diverged,
      port, link, inReset, fresh, pending⟩
    · rw [State.configure_station]
      split
      · rw [Controller.configured_shared (shared ‹_›)]
      · rw [Controller.configured_solo (solo ‹_›)]
    · obtain ⟨x, y, load0, load1⟩ := loads
      obtain ⟨holds, begun⟩ := State.configure_solo_loads (solo h) budget silent fun b => by
        cases b
        exacts [⟨x, load0⟩, ⟨y, load1⟩]
      exact ⟨holds, (begun .zero).2, (begun .one).2⟩

end Sys2Proof.Machine

/-! # The map unit's scan, its page and its block's erase

What a map page reads back as, what each scan sense makes of a MAP_LOAD, and what the erase verify of a MAP_REWRITE leads to. -/

namespace Sys2Proof.Machine

/-! ### Bytes laid out and read back (R181, R184) -/

/-- Two bytes of a number below 65,536, put together. -/
theorem be16_bytes16 {n : Nat} (h : n < 65536) : be16 (BitVec.ofNat 8 (n / 256)) (BitVec.ofNat 8 n) = n := by
  simp only [be16, BitVec.toNat_ofNat]
  omega

/-- The four bytes of a number, joined most significant first. -/
theorem bytes32_join (n : BitVec 32) :
    n.extractLsb' 24 8 ++ n.extractLsb' 16 8 ++ n.extractLsb' 8 8 ++ n.extractLsb' 0 8 = n := by
  rw [BitVec.extractLsb'_append_extractLsb'_eq_extractLsb' (start₂ := 24) (start₁ := 16) (len₁ := 8) rfl,
    BitVec.extractLsb'_append_extractLsb'_eq_extractLsb' (start₂ := 16) (start₁ := 8) (len₁ := 8) rfl,
    BitVec.extractLsb'_append_extractLsb'_eq_extractLsb' (start₂ := 8) (start₁ := 0) (len₁ := 8) rfl]
  exact BitVec.extractLsb'_eq_self

/-- The two bytes of a check code, joined most significant first. -/
theorem bytes16_join (c : BitVec 16) : c.extractLsb' 8 8 ++ c.extractLsb' 0 8 = c := by
  rw [BitVec.extractLsb'_append_extractLsb'_eq_extractLsb' (start₂ := 8) (start₁ := 0) (len₁ := 8) rfl]
  exact BitVec.extractLsb'_eq_self

theorem causeOf_code (c : Cause) : causeOf c.code = some c := by cases c <;> rfl

theorem pageBytesAt_length (p : Page) (offset n : Nat) : (pageBytesAt p offset n).length = n := by
  simp [pageBytesAt_eq]

theorem pageBytesAt_add (p : Page) (offset m n : Nat) :
    pageBytesAt p offset (m + n) = pageBytesAt p offset m ++ pageBytesAt p (offset + m) n := by
  simp [pageBytesAt_eq, List.range_add, Nat.add_assoc]

/-- Bytes written as a page are the page's bytes from offset 0. -/
theorem pageBytesAt_pageOfBytes (bs : List Byte) : pageBytesAt (pageOfBytes bs) 0 bs.length = bs := by
  rw [pageBytesAt_eq]
  refine List.ext_getElem (by simp) fun i _ hi => ?_
  rw [List.getElem_map, List.getElem_range]
  exact pageByte_pageWrite_inside [] 0 bs rfl i hi

/-! ### The map page (R159) -/

section MapPage

variable {p : Page}

/-- Three bytes that spell an entry in range read as that entry. -/
theorem entryOf_bytes {offset : Nat} {e : RetiredEntry} (h : pageBytesAt p offset 3 = e.bytes)
    (range : e.block < 2046) : entryOf p offset = some e := by
  simp only [pageBytesAt, RetiredEntry.bytes_eq, List.cons.injEq, and_true] at h
  obtain ⟨high, low, cause⟩ := h
  simp only [entryOf, high, low, cause, causeOf_code, be16_bytes16 (range.trans (by decide : 2046 < 65536))]
  exact if_pos range

/-- Bytes that spell a list of entries in range read as that list. -/
theorem entriesOf_bytes {offset : Nat} {es : List RetiredEntry}
    (h : pageBytesAt p offset (3 * es.length) = es.flatMap RetiredEntry.bytes) (range : ∀ e ∈ es, e.block < 2046) :
    entriesOf p offset es.length = some es := by
  induction es generalizing offset with
  | nil => rfl
  | cons e es ih =>
    rw [List.length_cons, Nat.mul_succ, Nat.add_comm, pageBytesAt_add, List.flatMap_cons] at h
    obtain ⟨first, rest⟩ := List.append_inj h (pageBytesAt_length ..)
    obtain ⟨inRange, rangeRest⟩ := List.forall_mem_cons.1 range
    simp only [List.length_cons, entriesOf, entryOf_bytes first inRange, ih rest rangeRest]

/-- A page that holds a list's bytes passes the tests of R159 and reads as that list. -/
theorem readMapPage_of_bytes {seq : BitVec 32} {es : List RetiredEntry} (length : es.length ≤ 64)
    (distinct : distinctBlocks es = true) (range : ∀ e ∈ es, e.block < 2046)
    (head : pageBytesAt p 0 5 = bytes32 seq ++ [BitVec.ofNat 8 es.length])
    (check : pageBytesAt p 5 2 = bytes16 (mapCheck (bytes32 seq ++ [BitVec.ofNat 8 es.length] ++
      es.flatMap RetiredEntry.bytes)).toNat)
    (body : pageBytesAt p 7 (3 * es.length) = es.flatMap RetiredEntry.bytes) :
    readMapPage p = some (seq, es) := by
  obtain ⟨s3, s2, s1, s0, count⟩ : pageByte p 0 = seq.extractLsb' 24 8 ∧ pageByte p 1 = seq.extractLsb' 16 8 ∧
      pageByte p 2 = seq.extractLsb' 8 8 ∧ pageByte p 3 = seq.extractLsb' 0 8 ∧
      pageByte p 4 = BitVec.ofNat 8 es.length := by
    simpa [pageBytesAt, bytes32] using head
  have counted : (pageByte p 4).toNat = es.length := by
    rw [count, BitVec.toNat_ofNat, Nat.mod_eq_of_lt (by omega)]
  have checked : mapCheck (pageBytesAt p 0 5 ++ pageBytesAt p 7 (3 * es.length)) = pageByte p 5 ++ pageByte p 6 := by
    rw [bytes16_nonce] at check
    obtain ⟨c1, c0⟩ := List.cons.inj check
    rw [head, body, c1, (List.cons.inj c0).1, bytes16_join]
  rw [readMapPage, counted, if_neg (by exact Nat.not_lt_of_le length), entriesOf_bytes body range]
  dsimp only
  rw [if_pos ⟨distinct, checked⟩, s3, s2, s1, s0, bytes32_join]

/-- The head, the check and the entries of a map page, each read at its place. -/
theorem pageBytesAt_mapPage (seq : BitVec 32) (es : List RetiredEntry) :
    pageBytesAt (mapPage seq es) 0 5 = bytes32 seq ++ [BitVec.ofNat 8 es.length] ∧
      pageBytesAt (mapPage seq es) 5 2 = bytes16 (mapCheck (bytes32 seq ++ [BitVec.ofNat 8 es.length] ++
        es.flatMap RetiredEntry.bytes)).toNat ∧
      pageBytesAt (mapPage seq es) 7 (3 * es.length) = es.flatMap RetiredEntry.bytes := by
  have length : (mapPageBytes seq es).length = 5 + 2 + 3 * es.length := by
    simp [mapPageBytes, bytes32, bytes16, length_flatMap_of_length RetiredEntry.bytes_length]
    omega
  have whole : pageBytesAt (mapPage seq es) 0 (5 + 2 + 3 * es.length) = mapPageBytes seq es :=
    length ▸ pageBytesAt_pageOfBytes (mapPageBytes seq es)
  rw [pageBytesAt_add, pageBytesAt_add, mapPageBytes] at whole
  obtain ⟨front, body⟩ := List.append_inj whole rfl
  obtain ⟨head, check⟩ := List.append_inj front rfl
  exact ⟨head, check, body⟩

end MapPage

/-- Settles O32: a map page's bytes stand at their places, and so they read back. -/
theorem mapPageReadsBackItsList : Obligations.MapPageReadsBackItsList := by
  intro seq entries length distinct range
  obtain ⟨head, check, body⟩ := pageBytesAt_mapPage seq entries
  exact readMapPage_of_bytes length distinct range head check body

/-! ### The end of a scan sense (R160, R161) -/

theorem betterPage_higher {old new : ScanBest} (h : old.seq.toNat < new.seq.toNat) : betterPage (some old) new = new :=
  if_pos h

theorem betterPage_lower {old new : ScanBest} (h : new.seq.toNat < old.seq.toNat) : betterPage (some old) new = old := by
  have differs : old.seq ≠ new.seq := fun same => absurd (same ▸ h) (Nat.lt_irrefl _)
  simp [betterPage, Nat.not_lt_of_lt h, differs]

/-- Of two pages with one number, the later is the better just where it is in the same block. -/
theorem betterPage_equal {old new : ScanBest} (h : old.seq = new.seq) :
    betterPage (some old) new = if old.block = new.block then new else old := by
  simp [betterPage, h]

/-- A sense that answers anything but TORN has found the block's erase-complete mark (R14). -/
theorem ArrayBank.sense_complete {a : ArrayBank} {block w : Nat} {p : Position} {cells : Option Page} {owner : SenseOwner}
    (h : (a.sense block w p cells owner).outcome ≠ .torn) : (a.sense block w p cells owner).eraseComplete = true := by
  rw [← Bool.not_eq_false]
  exact fun unclean => h (ArrayBank.sense_outcome_unclean p cells owner unclean)

/-- The scan once the sensed page has been judged, before it goes on. -/
def Scan.noted (scan : Scan) (r : SenseResult) : Scan :=
  if r.eraseComplete ∧ r.outcome = .erasedPage then scan.noteErased else scan.judge r

section Noted

variable {scan : Scan} {r : SenseResult}

theorem Scan.noted_valid (ok : r.outcome = .ok) {seq : BitVec 32} {entries : List RetiredEntry}
    (page : readMapPage r.page = some (seq, entries)) :
    scan.noted r = { scan with best := some (betterPage scan.best ⟨seq, entries, scan.block, scan.wordLine⟩) } := by
  simp [Scan.noted, Scan.judge, ok, page]

theorem Scan.noted_erased (complete : r.eraseComplete = true) (erased : r.outcome = .erasedPage) :
    scan.noted r = scan.noteErased :=
  if_pos ⟨complete, erased⟩

theorem Scan.noted_invalid (erased : r.outcome ≠ .erasedPage) (invalid : r.outcome = .ok → readMapPage r.page = none) :
    scan.noted r = scan := by
  unfold Scan.noted Scan.judge
  rw [if_neg fun h => erased h.2]
  split
  · rw [invalid ‹_›]
  · rfl

theorem Scan.blockEnds_iff :
    scan.blockEnds r = true ↔ r.eraseComplete = false ∨ r.outcome = .erasedPage ∨ 63 ≤ scan.wordLine := by
  simp [Scan.blockEnds, or_assoc]

theorem Scan.next_within (on : ¬ scan.blockEnds r = true) :
    scan.next r = ({ scan.noted r with wordLine := scan.wordLine + 1 }, true) :=
  if_neg on

theorem Scan.next_blockA (ends : scan.blockEnds r = true) (block : scan.block = .a) :
    scan.next r = ({ scan.noted r with block := .b, wordLine := 0 }, true) := by
  simp only [Scan.next, if_pos ends, block]
  rfl

theorem Scan.next_blockB (ends : scan.blockEnds r = true) (block : scan.block = .b) :
    scan.next r = (scan.noted r, false) := by
  simp only [Scan.next, if_pos ends, block]
  rfl

end Noted

section Settled

variable {bk : Bank} {scan : Scan}

theorem Bank.settleMap_best {best : ScanBest} (h : scan.best = some best) : bk.settleMap scan =
    { bk with
      internal := none
      retired := best.entries, mapSeq := best.seq, mapBlock := some best.block
      nextMapPage := (if best.block = .a then scan.firstErasedA else scan.firstErasedB).getD 64
      mapFailureRun := 0, mapState := .loaded } := by
  have next : scan.nextMapPage best.block =
      (if best.block = .a then scan.firstErasedA else scan.firstErasedB).getD 64 := by
    cases best.block <;> rfl
  rw [← next]
  simp only [Bank.settleMap, h]

theorem Bank.settleMap_lost (h : scan.best = none) : bk.settleMap scan =
    { bk with
      internal := none
      retired := [], mapSeq := 0#32, mapBlock := none, nextMapPage := 0, mapState := .lost } := by
  simp only [Bank.settleMap, h]

variable {begun : Bool} {cells : Option Page} {after : Scan} (hi : bk.internal = some ⟨.mapLoad scan, begun⟩)

include hi

theorem Bank.mapSensed_on
    (next : scan.next (bk.array.sense (mapBlockNumber scan.block) scan.wordLine .low cells .mapScan) = (after, true)) :
    bk.mapSensed cells = some
      ⟨{ bk with senseLatch := none, internal := some ⟨.mapLoad after, true⟩, step := some (.sense .mapScan) }, []⟩ := by
  simp only [Bank.mapSensed, hi, next]
  rfl

theorem Bank.mapSensed_settled
    (next : scan.next (bk.array.sense (mapBlockNumber scan.block) scan.wordLine .low cells .mapScan) = (after, false)) :
    bk.mapSensed cells = some ⟨({ bk with step := none, senseLatch := none } : Bank).settleMap after, []⟩ := by
  simp only [Bank.mapSensed, hi, next]
  rfl

end Settled

section Ends

variable {s : State} {b : BankId} {u : Turn} (hr : s.heldInReset = false)

include hr

theorem exec_mapScanSenseEnd {cells : Option Page} (hs : (s.bank b).step = some (.sense .mapScan))
    (hu : (s.bank b).mapSensed cells = some u) :
    exec (.mapScanSenseEnd b cells) s = .next (s.conclude b u) :=
  State.stepEnd_some (finish := fun bk _ => bk.mapSensed cells) hr hs hu

theorem exec_mapEraseVerifyEnd {passed : Bool} (hs : (s.bank b).step = some (.verify .mapErase))
    (hu : (s.bank b).mapEraseVerify passed = some u) :
    exec (.mapEraseVerifyEnd b passed) s = .next (s.conclude b u) :=
  State.stepEnd_some (finish := fun bk _ => bk.mapEraseVerify passed) hr hs hu

end Ends

/-- Settles O31: the pages compared, then the scan's next place by whether its block ends and which block that is. -/
theorem mapScanSenseEndGoesOnOrSettles : Obligations.MapScanSenseEndGoesOnOrSettles := by
  refine ⟨fun old new => ⟨rfl, betterPage_higher, betterPage_lower, fun same a b => ?_, fun same block => ?_⟩, ?_⟩
  · simp [betterPage_equal same, a, b]
  · rw [betterPage_equal same, if_pos block]
  intro s b cells scan begun hr hs hi bk r valid judged ends on
  have noted : scan.noted r = judged := by
    by_cases ok : r.outcome = .ok
    · cases page : readMapPage r.page with
      | none => simp [judged, valid, page, ok, Scan.noted_invalid (r := r) (by simp [ok]) fun _ => page]
      | some read => simp [judged, valid, page, ok, Scan.noted_valid ok page]
    · have none : valid = none := by
        cases page : readMapPage r.page <;> simp [valid, page, ok]
      by_cases erased : r.outcome = .erasedPage
      · have complete : r.eraseComplete = true := ArrayBank.sense_complete (by simp [r, erased])
        simp [judged, none, erased, Scan.noted_erased complete erased]
      · simp [judged, none, erased, Scan.noted_invalid erased fun h => absurd h ok]
  have blockEnds : scan.blockEnds r = true ↔ ends := Scan.blockEnds_iff
  rw [← blockEnds, ← noted]
  refine ⟨fun going => ?_, fun ended blockA => ?_, fun ended blockB best found => ?_, fun ended blockB found => ?_⟩
  · exact exec_mapScanSenseEnd hr hs (Bank.mapSensed_on hi (Scan.next_within going))
  · exact exec_mapScanSenseEnd hr hs (Bank.mapSensed_on hi (Scan.next_blockA ended blockA))
  · rw [exec_mapScanSenseEnd hr hs (Bank.mapSensed_settled hi (Scan.next_blockB ended blockB)), Bank.settleMap_best found]
  · rw [exec_mapScanSenseEnd hr hs (Bank.mapSensed_settled hi (Scan.next_blockB ended blockB)), Bank.settleMap_lost found]

/-! ### The erase verify of a MAP_REWRITE (R164 to R166) -/

section EraseVerify

variable {bk : Bank} {cur : MapBlock} {n : Nat} {begun : Bool} (hi : bk.internal = some ⟨.rewriteErase n, begun⟩)

include hi

theorem Bank.mapEraseVerify_passed (hc : bk.mapBlock = some cur) :
    bk.mapEraseVerify true = some (Turn.of (Bank.firstMapPulse
      { bk with
        step := none
        array := bk.array.setEraseComplete (mapBlockNumber (if cur = .a then .b else .a)) true }
      (if cur = .a then .b else .a) 0 (.rewritePage 0 1))) := by
  rw [← Bank.otherMapBlock_some hc]
  simp [Bank.mapEraseVerify, hi, Bank.otherMapBlock]

theorem Bank.mapEraseVerify_again (hn : n < 8) :
    bk.mapEraseVerify false = some (bk.nextMapPulse (.rewriteErase (n + 1)) .mapErase) := by
  simp [Bank.mapEraseVerify, hi, eraseLimit, Nat.not_le_of_lt hn, Bank.nextMapPulse]

theorem Bank.mapEraseVerify_failed (hn : 8 ≤ n) :
    bk.mapEraseVerify false = some ({ bk with step := none } : Bank).degrade := by
  simp [Bank.mapEraseVerify, hi, eraseLimit, hn]

end EraseVerify

/-- Settles O34, by the verify's result and the erase pulses given. -/
theorem mapEraseVerifyEndLeadsToThePages : Obligations.MapEraseVerifyEndLeadsToThePages := by
  intro s b sl behind failure cur n begun hr hs hq recording hf hc hi bk other
  refine ⟨exec_mapEraseVerifyEnd hr hs (Bank.mapEraseVerify_passed hi hc),
    fun hn => exec_mapEraseVerifyEnd hr hs (Bank.mapEraseVerify_again hi hn), fun hn => ?_⟩
  rw [exec_mapEraseVerifyEnd hr hs (Bank.mapEraseVerify_failed hi hn),
    Bank.degrade_of_failure (bk := { bk with step := none }) hq recording hf]

end Sys2Proof.Machine

/-! # The transactions of the host link

Which rows are transactions, when the die takes none, and the answer to a parameter count that a command's form does not have. -/

namespace Sys2Proof.Machine

/-! ### Steps and transactions (R170, R178 to R180) -/

/-- Settles O1, by the queue's form. -/
theorem stepTakesTheFrontCommand : Obligations.StepTakesTheFrontCommand := by
  intro s c rest front
  simp only [step, front]

/-- Every command of the host, and every transaction that is cut short, is a transaction with an effect of its own. -/
theorem exec_eq_transaction {c : Instr} (wf : c.wf = true)
    (sent : c.command?.isSome = true ∨ ∃ bytes, c = .transactionCut bytes) :
    ∃ act, ∀ s, exec c s = s.transaction act := by
  cases c with
  | configure | join | leave | postRead | postProgram | postFinish | postErase | abort | loadStaging | fetchOutput
  | releaseOutput | takeCompletions | readStatus | readBudgetTable | readRetired | dieReset => exact ⟨_, fun _ => rfl⟩
  | unknownCommand code params =>
    simp only [Instr.wf, Bool.and_eq_true, Bool.not_eq_true'] at wf
    exact ⟨_, fun _ => if_neg (ne_true_of_eq_false wf.1)⟩
  | transactionCut bytes =>
    simp only [Instr.wf, Bool.not_eq_true'] at wf
    exact ⟨_, fun _ => if_neg (ne_true_of_eq_false wf)⟩
  | _ => rcases sent with happening | ⟨_, happening⟩ <;> cases happening

/-- No transaction is taken in reset or once DIE_RESET has been taken (R178, R179). -/
theorem State.transaction_untaken {s : State} (h : s.heldInReset = true ∨ s.link.resetTaken = true) (act : State → State) :
    s.transaction act = .next s :=
  if_pos (by simpa using h)

/-- The transaction astride the end of a reset is not read: it ends the wait for HSEL_N's rise (R180). -/
theorem State.transaction_straddling {s : State} (out : s.heldInReset = false) (free : s.link.resetTaken = false)
    (astride : s.link.awaitRise = true) (act : State → State) :
    s.transaction act = .next { s with link := { s.link with awaitRise := false } } :=
  (if_neg (by simp [out, free])).trans (if_pos astride)

/-- Settles O3, from what a transaction does in a die that is not ready for one. -/
theorem noCommandIsTakenInReset : Obligations.NoCommandIsTakenInReset := by
  intro c s wf sent
  obtain ⟨act, taken⟩ := exec_eq_transaction wf sent
  rw [taken]
  exact ⟨fun h => s.transaction_untaken h act, fun out free astride => State.transaction_straddling out free astride act⟩

/-! ### Parameter counts (R171, R181) -/

section Counts

variable {params : List Byte}

theorem configureParams_none (h : params.length ≠ 4) : configureParams params = none := by
  unfold configureParams
  split
  · exact absurd rfl h
  · rfl

theorem readPost_none (h : params.length ≠ 6) : readPost params = none := by
  unfold readPost
  split
  · exact absurd rfl h
  · rfl

theorem programPost_none (h : params.length ≠ 5) : programPost params = none := by
  unfold programPost
  split
  · exact absurd rfl h
  · rfl

theorem finishPost_none (h : params.length ≠ 4) : finishPost params = none := by
  unfold finishPost
  split
  · exact absurd rfl h
  · rfl

theorem erasePost_none (h : params.length ≠ 5) : erasePost params = none := by
  unfold erasePost
  split
  · exact absurd rfl h
  · rfl

/-- LOAD_STAGING's form has a count of 6 plus its length field (R171). -/
theorem loadParams_none (h : lengthFits 0x31#8 params = false) : loadParams params = none := by
  unfold loadParams
  split
  · exact if_neg (of_decide_eq_false h)
  · rfl

end Counts

section BadLength

variable {s : State} {params : List Byte} (ready : s.ready = true)

include ready

theorem exec_configure_badLength (h : params.length ≠ 4) : exec (.configure params) s = .next (s.answer .badLength) := by
  show execConfigure params s = _
  rw [execConfigure, State.transaction_ready ready, configureParams_none h]

theorem exec_post_badLength {c : Instr} (h : postOf c = some none) : exec c s = .next (s.answer .badLength) :=
  exec_post_ready h ready

theorem exec_abort_badLength (h : params.length ≠ 1) : exec (.abort params) s = .next (s.answer .badLength) := by
  show execAbort params s = _
  rw [execAbort, State.transaction_ready ready, oneByte_none h]

theorem exec_readStatus_badLength (h : params ≠ []) : exec (.readStatus params) s = .next (s.answer .badLength) := by
  show execReadStatus params s = _
  rw [execReadStatus, State.transaction_ready ready, if_pos h]

theorem exec_readBudgetTable_badLength (h : params ≠ []) :
    exec (.readBudgetTable params) s = .next (s.answer .badLength) := by
  show execReadBudgetTable params s = _
  rw [execReadBudgetTable, State.transaction_ready ready, if_pos h]

theorem exec_readRetired_badLength (h : params.length ≠ 1) : exec (.readRetired params) s = .next (s.answer .badLength) := by
  show execReadRetired params s = _
  rw [execReadRetired, State.transaction_ready ready, oneByte_none h]

theorem exec_dieReset_badLength (h : params ≠ []) : exec (.dieReset params) s = .next (s.answer .badLength) := by
  show execDieReset params s = _
  rw [execDieReset, State.transaction_ready ready, if_pos h]

/-- Each of the sixteen commands is answered BAD_LENGTH where its count is not the required one (R171). -/
theorem exec_commandOf_badLength {code : Byte} (known : code ∈ commandCodes) (unfit : lengthFits code params = false) :
    exec (commandOf code params) s = .next (s.answer .badLength) := by
  have count {n : Nat} (h : decide (params.length = n) = false) : params.length ≠ n := of_decide_eq_false h
  have nonempty (h : decide (params.length = 0) = false) : params ≠ [] := mt List.length_eq_zero_iff.2 (count h)
  have post {c : Instr} {p : Option Post} (of : postOf c = some p) (unread : p = none) :
      exec c s = .next (s.answer .badLength) := exec_post_badLength ready (unread ▸ of)
  simp only [commandCodes, List.mem_cons, List.not_mem_nil, or_false] at known
  rcases known with rfl | rfl | rfl | rfl | rfl | rfl | rfl | rfl | rfl | rfl | rfl | rfl | rfl | rfl | rfl | rfl
  · exact exec_configure_badLength ready (count unfit)
  · exact State.exec_join_badLength ready (nonempty unfit)
  · exact State.exec_leave_badLength ready (nonempty unfit)
  · exact post (c := .postRead params) rfl (readPost_none (count unfit))
  · exact post (c := .postProgram params) rfl (programPost_none (count unfit))
  · exact post (c := .postFinish params) rfl (finishPost_none (count unfit))
  · exact post (c := .postErase params) rfl (erasePost_none (count unfit))
  · exact exec_abort_badLength ready (count unfit)
  · exact exec_loadStaging_badLength ready (loadParams_none unfit)
  · exact exec_fetchOutput_badLength ready (fetchParams_none (count unfit))
  · exact exec_releaseOutput_badLength ready (count unfit)
  · exact execTakeCompletions_badLength ready (count unfit)
  · exact exec_readStatus_badLength ready (nonempty unfit)
  · exact exec_readBudgetTable_badLength ready (nonempty unfit)
  · exact exec_readRetired_badLength ready (count unfit)
  · exact exec_dieReset_badLength ready (nonempty unfit)

end BadLength

theorem exec_unknownCommand {s : State} (ready : s.ready = true) {code : Byte} (unknown : code ∉ commandCodes)
    (params : List Byte) : exec (.unknownCommand code params) s = .next (s.answer .unknownCommand) :=
  (if_neg (mt List.contains_iff_mem.1 unknown)).trans (State.transaction_ready ready _)

theorem exec_unknownCommand_refused {code : Byte} (known : code ∈ commandCodes) (params : List Byte) (s : State) :
    exec (.unknownCommand code params) s = .refused .anotherRow :=
  if_pos (List.contains_iff_mem.2 known)

theorem exec_transactionCut {s : State} (ready : s.ready = true) {bytes : List Byte} (cut : commandComplete bytes = false) :
    exec (.transactionCut bytes) s = .next s :=
  (if_neg (ne_true_of_eq_false cut)).trans (State.transaction_ready ready _)

theorem exec_transactionCut_refused {bytes : List Byte} (complete : commandComplete bytes = true) (s : State) :
    exec (.transactionCut bytes) s = .refused .anotherRow :=
  if_pos complete

/-- Settles O4, row by row. -/
theorem unjudgedCommandsChangeNothing : Obligations.UnjudgedCommandsChangeNothing :=
  fun _ params _ s ready => ⟨exec_commandOf_badLength ready, fun unknown => exec_unknownCommand ready unknown params,
    fun known => exec_unknownCommand_refused known params s, exec_transactionCut ready,
    fun complete => exec_transactionCut_refused complete s⟩

end Sys2Proof.Machine

/-! # A command's bytes and bits

The bytes of a transaction read back as its command, the bits of HDI as the bytes, and the bits of HDO by position
(R169, R170, R172). -/

namespace Sys2Proof.Machine

/-! ### The bytes of a command phase (R170, R171) -/

/-- What a well-formed command is sent as is read as that command, and a happening is not sent (R170, R171). -/
theorem commandOf_command (c : Instr) : Laws.CommandOf.Statement c := by
  cases c with
  | configure params => exact Laws.CommandOf.configure params
  | join params => exact Laws.CommandOf.join params
  | leave params => exact Laws.CommandOf.leave params
  | postRead params => exact Laws.CommandOf.postRead params
  | postProgram params => exact Laws.CommandOf.postProgram params
  | postFinish params => exact Laws.CommandOf.postFinish params
  | postErase params => exact Laws.CommandOf.postErase params
  | abort params => exact Laws.CommandOf.abort params
  | loadStaging params => exact Laws.CommandOf.loadStaging params
  | fetchOutput params => exact Laws.CommandOf.fetchOutput params
  | releaseOutput params => exact Laws.CommandOf.releaseOutput params
  | takeCompletions params => exact Laws.CommandOf.takeCompletions params
  | readStatus params => exact Laws.CommandOf.readStatus params
  | readBudgetTable params => exact Laws.CommandOf.readBudgetTable params
  | readRetired params => exact Laws.CommandOf.readRetired params
  | dieReset params => exact Laws.CommandOf.dieReset params
  | unknownCommand code params => exact Laws.CommandOf.unknownCommand code params
  | _ => exact fun _ => rfl

/-- A command phase is read back as its code and its parameters, whatever follows it (R170). -/
theorem decodeTransaction_commandPhase (code : Byte) {params : List Byte} (short : params.length ≤ 65535)
    (extra : List Byte) : decodeTransaction (commandPhase code params ++ extra) = commandOf code params := by
  have count : be16 (BitVec.ofNat 8 (params.length / 256)) (BitVec.ofNat 8 params.length) = params.length :=
    be16_bytes16 (Nat.lt_succ_of_le short)
  show decodeTransaction (code :: _ :: _ :: (params ++ extra)) = _
  rw [decodeTransaction, count, if_pos (by simp), List.take_left' rfl]

/-- The bytes that a well-formed command is sent as are read as that command; the response phase is ignored (R170). -/
theorem decodeTransaction_encode {c : Instr} {bytes : List Byte} (wf : c.wf = true) (sent : c.encode = some bytes)
    (extra : List Byte) : decodeTransaction (bytes ++ extra) = c := by
  have reads := commandOf_command c wf
  obtain ⟨⟨code, params⟩, command, rfl⟩ := Option.map_eq_some_iff.1 sent
  rw [command] at reads
  rw [decodeTransaction_commandPhase code reads.2, reads.1]

/-- A transaction cut short in its command phase keeps the bytes clocked in by then (R172). -/
theorem decodeTransaction_cut {bytes : List Byte} (cut : commandComplete bytes = false) :
    decodeTransaction bytes = .transactionCut bytes := by
  unfold decodeTransaction
  split
  · exact if_neg (of_decide_eq_false cut)
  · rfl

/-! ### Bits in the order sent (R169) -/

theorem byteBits_eq (b : Byte) : byteBits b = (List.range 8).map fun k => b.getMsbD k := rfl

theorem byteBits_length (b : Byte) : (byteBits b).length = 8 := rfl

theorem byteBits_getElem? (b : Byte) {k : Nat} (h : k < 8) : (byteBits b)[k]? = some (b.getMsbD k) := by
  simp [byteBits_eq, h]

/-- The bits of whole bytes and of one that is cut short are the bytes (R169). -/
theorem hdiBytes_bits (bytes : List Byte) {cut : List Bool} (short : cut.length < 8) :
    hdiBytes (bytes.flatMap byteBits ++ cut) = bytes := by
  induction bytes with
  | nil => exact hdiBytes_short short
  | cons b rest ih => rw [List.flatMap_cons, List.append_assoc, hdiBytes_byte, ih]

theorem decodeHdi_bits (bytes : List Byte) {cut : List Bool} (short : cut.length < 8) :
    decodeHdi (bytes.flatMap byteBits ++ cut) = decodeTransaction bytes :=
  congrArg decodeTransaction (hdiBytes_bits bytes short)

/-- A bit of a row of bytes is the bit of its byte. -/
theorem flatMap_byteBits_getElem? (bytes : List Byte) (bit : Nat) :
    (bytes.flatMap byteBits)[bit]? = bytes[bit / 8]?.map fun b => b.getMsbD (bit % 8) := by
  induction bytes generalizing bit with
  | nil => rfl
  | cons b rest ih =>
    rw [List.flatMap_cons]
    by_cases first : bit < 8
    · rw [List.getElem?_append_left (byteBits_length b ▸ first), byteBits_getElem? b first, Nat.div_eq_of_lt first,
        Nat.mod_eq_of_lt first]
      rfl
    · obtain ⟨later, rfl⟩ := Nat.exists_eq_add_of_le' (Nat.le_of_not_lt first)
      rw [List.getElem?_append_right (by rw [byteBits_length]; omega), byteBits_length, Nat.add_sub_cancel, ih,
        Nat.add_div_right later (by decide), Nat.add_mod_right]
      rfl

/-! ### HDO by position (R169, R170, R178) -/

/-- The byte that HDO sends at a position: the response's behind the command phase, and 0xFF where there is none (R170). -/
theorem hdoBytes_getElem? (response : Option (List Byte)) (command : Nat) {position positions : Nat}
    (h : position < positions) : (hdoBytes response command positions)[position]? =
      some (if position < command then 0xFF#8 else ((response.getD [])[position - command]?).getD 0xFF#8) := by
  rw [hdoBytes, List.getElem?_take_of_lt h, List.append_assoc]
  by_cases phase : position < command
  · rw [if_pos phase, List.getElem?_append_left (by simpa), List.getElem?_replicate_of_lt phase]
  · rw [if_neg phase, List.getElem?_append_right (by simpa using phase), List.length_replicate]
    by_cases inside : position - command < (response.getD []).length
    · rw [List.getElem?_append_left inside, List.getElem?_eq_getElem inside]
      rfl
    · rw [List.getElem?_append_right (by omega), List.getElem?_eq_none (Nat.le_of_not_lt inside),
        List.getElem?_replicate_of_lt (by omega)]
      rfl

section Hdo

variable {s : State} {hselLow : Bool}

theorem State.hdo_undriven (h : hselLow = false ∨ s.heldInReset = true) (response : Option (List Byte))
    (command bit : Nat) : s.hdo hselLow response command bit = none := by
  refine if_neg ?_
  rcases h with high | held
  · simp [high]
  · simp [held]

/-- A driven HDO is at the level of its position's byte, most significant bit first. -/
theorem State.hdo_driven (low : hselLow = true) (out : s.heldInReset = false) (response : Option (List Byte))
    (command bit : Nat) : s.hdo hselLow response command bit =
      some ((if bit / 8 < command then 0xFF#8 else ((response.getD [])[bit / 8 - command]?).getD 0xFF#8).getMsbD (bit % 8)) := by
  rw [State.hdo, if_pos (by simp [low, out]), flatMap_byteBits_getElem?, hdoBytes_getElem? response command (Nat.lt_succ_self _)]
  rfl

/-- Every bit of 0xFF is 1. -/
theorem getMsbD_0xFF (bit : Nat) : (0xFF#8).getMsbD (bit % 8) = true :=
  BitVec.getMsbD_allOnes.trans (decide_eq_true (Nat.mod_lt bit (by decide)))

theorem State.hdo_command (low : hselLow = true) (out : s.heldInReset = false) (response : Option (List Byte))
    {command bit : Nat} (h : bit / 8 < command) : s.hdo hselLow response command bit = some true := by
  rw [hdo_driven low out, if_pos h, getMsbD_0xFF]

theorem State.hdo_response (low : hselLow = true) (out : s.heldInReset = false) {bytes : List Byte} {b : Byte}
    {command bit : Nat} (h : command ≤ bit / 8) (hb : bytes[bit / 8 - command]? = some b) :
    s.hdo hselLow (some bytes) command bit = some (b.getMsbD (bit % 8)) := by
  rw [hdo_driven low out, if_neg (Nat.not_lt_of_le h), Option.getD_some, hb, Option.getD_some]

/-- Behind the response HDO is 1. -/
theorem State.hdo_beyond (low : hselLow = true) (out : s.heldInReset = false) {response : Option (List Byte)}
    {command bit : Nat} (h : command + (response.getD []).length ≤ bit / 8) :
    s.hdo hselLow response command bit = some true := by
  rw [hdo_driven low out, if_neg (by omega), List.getElem?_eq_none (by omega), Option.getD_none, getMsbD_0xFF]

/-- A transaction that takes no command has no response: HDO is 1 throughout. -/
theorem State.hdo_untaken (low : hselLow = true) (out : s.heldInReset = false) (command bit : Nat) :
    s.hdo hselLow none command bit = some true := by
  by_cases phase : bit / 8 < command
  · exact hdo_command low out none phase
  · exact hdo_beyond low out (by simpa using phase)

end Hdo

/-- Settles O5, by what the bytes, the bits of HDI and the positions of HDO read as. -/
theorem decodedTransactionIsTheEncodedCommand : Obligations.DecodedTransactionIsTheEncodedCommand := by
  refine ⟨fun c bytes extra wf sent => ⟨decodeTransaction_encode wf sent extra, fun cut short => ?_⟩,
    fun bytes cut short incomplete => (decodeHdi_bits bytes short).trans (decodeTransaction_cut incomplete),
    fun s hselLow response command bit => ⟨fun h => State.hdo_undriven h response command bit, fun low out =>
      ⟨State.hdo_command low out response, fun bytes b of after hb => ?_, fun bytes of after => ?_, fun untaken => ?_⟩⟩⟩
  · exact (decodeHdi_bits (bytes ++ extra) short).trans (decodeTransaction_encode wf sent extra)
  · exact of ▸ State.hdo_response low out after hb
  · exact State.hdo_beyond low out (of ▸ after)
  · exact untaken ▸ State.hdo_untaken low out command bit

end Sys2Proof.Machine

/-! # The status view and ATTN_N

The 33 bytes of the status view field by field, when ATTN_N is asserted, and READ_STATUS (R174 to R177, R183). -/

namespace Sys2Proof.Machine

/-! ### The bytes of the status view (R174, R183) -/

theorem bitsByte_flags4 (a b c d : Bool) : bitsByte [a, b, c, d] =
    (if a then 1#8 else 0#8) ||| (if b then 2#8 else 0#8) ||| (if c then 4#8 else 0#8) ||| (if d then 8#8 else 0#8) := by
  revert a b c d
  decide

theorem bitsByte_flags5 (a b c d e : Bool) : bitsByte [a, b, c, d, e] =
    (if a then 1#8 else 0#8) ||| (if b then 2#8 else 0#8) ||| (if c then 4#8 else 0#8) ||| (if d then 8#8 else 0#8) |||
      (if e then 16#8 else 0#8) := by
  revert a b c d e
  decide

/-- The 7 bytes of a bank part, each by the field it carries (R183). -/
theorem Bank.part_eq (bk : Bank) : bk.part = [
    internalCode bk.internal, bk.mapState.code,
    (if bk.openBlock = none then 0#8 else 1#8) ||| (if bk.staging.low.loaded then 2#8 else 0#8) |||
      (if bk.staging.middle.loaded then 4#8 else 0#8) ||| (if bk.staging.high.loaded then 8#8 else 0#8) |||
      (if bk.output.holder = none then 0#8 else 16#8),
    (match bk.openBlock with | none => 0xFF#8 | some r => BitVec.ofNat 8 (r.block / 256)),
    (match bk.openBlock with | none => 0xFF#8 | some r => BitVec.ofNat 8 r.block),
    (match bk.openBlock with | none => 0xFF#8 | some r => BitVec.ofNat 8 r.next),
    (match bk.output.holder with | none => 0#8 | some tag => tag)] := by
  rw [Bank.part, bitsByte_flags5]
  cases bk.openBlock <;> cases bk.output.holder <;> rfl

theorem Entry.level_byte (e : Entry) :
    viewByte e.level = match e.waiting with | none => 0#8 | some w => BitVec.ofNat 8 w.level := by
  unfold Entry.level
  cases e.waiting <;> rfl

theorem settingsBytes_eq (settings : Option Settings) : settingsBytes settings = [
    (match settings with | none => 0#8 | some g => g.busUse.code),
    (match settings with | none => 0#8 | some g => BitVec.ofNat 8 g.budget),
    (match settings with | none => 0#8 | some g => BitVec.ofNat 8 g.lease),
    (match settings with | none => 0#8 | some g => BitVec.ofNat 8 g.waitLimit)] := by
  cases settings <;> rfl

/-- The station's indicators: LAPSED, DIVERGED, the learning window, BUS_STUCK (R183). -/
theorem State.indicators_eq (s : State) :
    bitsByte [s.ctl.lapsed, s.ctl.diverged, s.ctl.window.isSome, s.port.stuck] =
      (if s.ctl.lapsed then 1#8 else 0#8) ||| (if s.ctl.diverged then 2#8 else 0#8) |||
        (if s.ctl.window = none then 0#8 else 4#8) ||| (if s.port.stuck then 8#8 else 0#8) := by
  rw [bitsByte_flags4]
  cases s.ctl.window <;> rfl

/-- The 33 bytes of the status view: 18 of the station and of the table, 7 of each bank and the news flags. -/
theorem State.statusView_eq (s : State) : s.statusView =
    [s.ctl.station.code, BitVec.ofNat 8 s.ctl.id.toNat,
      (match s.ctl.settings with | none => 0#8 | some g => g.busUse.code),
      (match s.ctl.settings with | none => 0#8 | some g => BitVec.ofNat 8 g.budget),
      (match s.ctl.settings with | none => 0#8 | some g => BitVec.ofNat 8 g.lease),
      (match s.ctl.settings with | none => 0#8 | some g => BitVec.ofNat 8 g.waitLimit),
      (if s.ctl.lapsed then 1#8 else 0#8) ||| (if s.ctl.diverged then 2#8 else 0#8) |||
        (if s.ctl.window = none then 0#8 else 4#8) ||| (if s.port.stuck then 8#8 else 0#8),
      BitVec.ofNat 8 s.ctl.own.held, BitVec.ofNat 8 s.need,
      (match s.ctl.own.waiting with | none => 0#8 | some w => BitVec.ofNat 8 w.level),
      BitVec.ofNat 8 s.bank0.reservation, BitVec.ofNat 8 s.bank1.reservation,
      BitVec.ofNat 8 s.port.rejectionRun, BitVec.ofNat 8 s.port.rejectRun,
      BitVec.ofNat 8 s.slotsInUse, BitVec.ofNat 8 s.completions.length,
      BitVec.ofNat 8 s.bank0.queue.length, BitVec.ofNat 8 s.bank1.queue.length] ++ s.bank0.part ++ s.bank1.part ++
      [(if s.link.stationNews then 1#8 else 0#8) ||| (if s.link.divergedNews then 2#8 else 0#8) |||
        (if s.link.mapNews0 then 4#8 else 0#8) ||| (if s.link.mapNews1 then 8#8 else 0#8)] := by
  rw [State.statusView, settingsBytes_eq, State.indicators_eq, Entry.level_byte, Link.newsByte, bitsByte_flags4]
  rfl

theorem State.statusView_length (s : State) : s.statusView.length = 33 := by
  rw [State.statusView_eq, Bank.part_eq, Bank.part_eq]
  rfl

/-! ### ATTN_N (R177) -/

theorem Link.anyNews_iff {l : Link} : l.anyNews = true ↔
    l.stationNews = true ∨ l.divergedNews = true ∨ l.mapNews0 = true ∨ l.mapNews1 = true := by
  simp [Link.anyNews, or_assoc]

theorem State.attentionAsserted_iff {s : State} :
    s.attentionAsserted = true ↔ s.heldInReset = false ∧ (s.completions ≠ [] ∨ s.link.anyNews = true) := by
  simp [State.attentionAsserted]

/-- With no record waiting and no news ATTN_N is released. -/
theorem State.attentionReleased {s : State} (taken : s.completions = []) (read : s.link.anyNews = false) :
    s.attentionAsserted = false := by
  simp [State.attentionAsserted, taken, read]

/-! ### READ_STATUS (R175) -/

theorem exec_readStatus {s : State} (ready : s.ready = true) :
    exec (.readStatus []) s = .next (s.clearNews.answerData s.statusView) := by
  show execReadStatus [] s = _
  rw [execReadStatus, State.transaction_ready ready, if_neg (not_not.2 rfl)]

/-- Settles O16: the view byte by byte, and ATTN_N by the records and the news that a command leaves. -/
theorem readStatusReturnsTheViewAndClearsTheNews : Obligations.ReadStatusReturnsTheViewAndClearsTheNews := by
  intro s
  refine ⟨exec_readStatus, s.statusView_length, ?view, rfl, ?attention, fun ready few silent => ?taken, fun ready empty => ?read⟩
  case view =>
    rw [State.statusView_eq, Bank.part_eq, Bank.part_eq]
    rfl
  case attention => rw [State.attentionAsserted_iff, Link.anyNews_iff]
  case taken =>
    exact ⟨_, execTakeCompletions_taken ready (by decide) (by decide),
      State.attentionReleased (List.drop_eq_nil_of_le few) silent⟩
  case read => exact ⟨_, exec_readStatus ready, State.attentionReleased empty rfl⟩

end Sys2Proof.Machine
